-- ==== Sys2Proof/Word.lean ====
section
/-! DEFINITION. The bit strings of the P6 core: words, bytes and the fields of an instruction word
(`10_state.md` rules R21, R26; `30_encoding.md` rule R70). Only the types stand here. -/

namespace Sys2Proof

/-- A 32-bit string: a general register, `HI`, `LO`, `pc`, `npc`, an instruction word (rules R7, R11). -/
abbrev Word := BitVec 32

/-- One byte of either address space (rule R40). -/
abbrev Byte := BitVec 8

/-- A general register number, as the 5-bit fields `rs`, `rt`, `rd` hold it (rule R75). -/
abbrev Reg := BitVec 5

/-- The constant amount of a shift, `shamt` (rule R70). -/
abbrev Shamt := BitVec 5

/-- The immediate or offset field `imm16` of an I-type word (rule R70). -/
abbrev Imm16 := BitVec 16

/-- The `instr_index` field of a J-type word (rule R70). -/
abbrev Index26 := BitVec 26

end Sys2Proof
end

