-- ==== Sys2Proof/Syntax.lean ====
section
/-! DEFINITION. The instructions: one constructor for each of the 50 rows of `opcode_table.json`
(`00_scope.md` rule R2), with exactly the operand fields the row names. A field that an
instruction ignores (`30_encoding.md` rules R73, R77) is no operand. -/

namespace Sys2Proof

/-- The 50 instructions (rules R76 to R79), in the table's order. -/
inductive Instr where
  -- arithmetic (rules R101 to R106)
  | add (rs rt rd : Reg)
  | addu (rs rt rd : Reg)
  | sub (rs rt rd : Reg)
  | subu (rs rt rd : Reg)
  | addi (rs rt : Reg) (imm : Imm16)
  | addiu (rs rt : Reg) (imm : Imm16)
  -- logic and shifts (rules R110 to R123)
  | and (rs rt rd : Reg)
  | or (rs rt rd : Reg)
  | xor (rs rt rd : Reg)
  | nor (rs rt rd : Reg)
  | sll (rt rd : Reg) (shamt : Shamt)
  | srl (rt rd : Reg) (shamt : Shamt)
  | sra (rt rd : Reg) (shamt : Shamt)
  | sllv (rs rt rd : Reg)
  | srlv (rs rt rd : Reg)
  | srav (rs rt rd : Reg)
  | andi (rs rt : Reg) (imm : Imm16)
  | ori (rs rt : Reg) (imm : Imm16)
  | xori (rs rt : Reg) (imm : Imm16)
  -- multiply, divide and the moves of HI and LO (rules R131 to R138)
  | mult (rs rt : Reg)
  | multu (rs rt : Reg)
  | div (rs rt : Reg)
  | divu (rs rt : Reg)
  | mfhi (rd : Reg)
  | mthi (rs : Reg)
  | mflo (rd : Reg)
  | mtlo (rs : Reg)
  -- set on less than, load upper immediate (rules R150 to R154)
  | slt (rs rt rd : Reg)
  | sltu (rs rt rd : Reg)
  | slti (rs rt : Reg) (imm : Imm16)
  | sltiu (rs rt : Reg) (imm : Imm16)
  | lui (rt : Reg) (imm : Imm16)
  -- branches (rules R161 to R166)
  | bltz (rs : Reg) (imm : Imm16)
  | bgez (rs : Reg) (imm : Imm16)
  | beq (rs rt : Reg) (imm : Imm16)
  | bne (rs rt : Reg) (imm : Imm16)
  | blez (rs : Reg) (imm : Imm16)
  | bgtz (rs : Reg) (imm : Imm16)
  -- jumps (rules R181 to R184)
  | jr (rs : Reg)
  | jalr (rs rd : Reg)
  | j (index : Index26)
  | jal (index : Index26)
  -- loads and stores (rules R191 to R198)
  | lb (rs rt : Reg) (imm : Imm16)
  | lh (rs rt : Reg) (imm : Imm16)
  | lw (rs rt : Reg) (imm : Imm16)
  | lbu (rs rt : Reg) (imm : Imm16)
  | lhu (rs rt : Reg) (imm : Imm16)
  | sb (rs rt : Reg) (imm : Imm16)
  | sh (rs rt : Reg) (imm : Imm16)
  | sw (rs rt : Reg) (imm : Imm16)
  deriving DecidableEq, Repr

end Sys2Proof
end

