-- ==== Sys2Proof/Decode.lean ====
section
/-! DEFINITION. Decoding (`30_encoding.md` rules R70 to R83): the splitter SPL's fields, the decoder from a
word and from bytes, total and rejecting by name, and after it the encoder. The positions of the
fields (rule R71, D1) and the opcode 000000 of the R-type words (rule R72, D2) are PRESUMED, from general
knowledge as the spec marks them: unsafe, log 14. -/

namespace Sys2Proof

/-! ### The fields of a word (rules R71, R308) -/

/-- `opcode`, bits 31..26. -/
def fOpcode (w : Word) : BitVec 6 := w.extractLsb' 26 6
/-- `rs`, bits 25..21. -/
def fRs (w : Word) : Reg := w.extractLsb' 21 5
/-- `rt`, bits 20..16. -/
def fRt (w : Word) : Reg := w.extractLsb' 16 5
/-- `rd`, bits 15..11. -/
def fRd (w : Word) : Reg := w.extractLsb' 11 5
/-- `shamt`, bits 10..6. -/
def fShamt (w : Word) : Shamt := w.extractLsb' 6 5
/-- `funct`, bits 5..0. -/
def fFunct (w : Word) : BitVec 6 := w.extractLsb' 0 6
/-- `imm16`, bits 15..0. -/
def fImm (w : Word) : Imm16 := w.extractLsb' 0 16
/-- `instr_index`, bits 25..0. -/
def fIndex (w : Word) : Index26 := w.extractLsb' 0 26

/-! ### The decoder -/

/-- Why bytes or a word are no instruction (rule R81, D10; U1). -/
inductive DecodeError where
  /-- Fewer than the four bytes of an instruction (rule R70). -/
  | truncated
  /-- A primary opcode that rule R76 does not list. -/
  | opcode (op : BitVec 6)
  /-- Opcode 000000 with a `funct` that rule R77 does not list. -/
  | funct (fn : BitVec 6)
  /-- Opcode 000001 with an `rt` other than 00000 and 00001 (rule R78). -/
  | regimmRt (rt : Reg)
  /-- blez or bgtz with an `rt` other than 00000 (rule R79). -/
  | branchRt (op : BitVec 6) (rt : Reg)
  deriving DecidableEq, Repr

/-- What the decoder answers: an instruction, or a rejection by name (rule R80). -/
inductive Decoded where
  | instr (i : Instr)
  | rejected (e : DecodeError)
  deriving DecidableEq, Repr

/-- The R-type map, by `funct` under opcode 000000 (rule R77). -/
def decodeSpecial (w : Word) : Decoded :=
  match fFunct w with
  | 0b100000#6 => .instr (.add (fRs w) (fRt w) (fRd w))
  | 0b100001#6 => .instr (.addu (fRs w) (fRt w) (fRd w))
  | 0b100010#6 => .instr (.sub (fRs w) (fRt w) (fRd w))
  | 0b100011#6 => .instr (.subu (fRs w) (fRt w) (fRd w))
  | 0b100100#6 => .instr (.and (fRs w) (fRt w) (fRd w))
  | 0b100101#6 => .instr (.or (fRs w) (fRt w) (fRd w))
  | 0b100110#6 => .instr (.xor (fRs w) (fRt w) (fRd w))
  | 0b100111#6 => .instr (.nor (fRs w) (fRt w) (fRd w))
  | 0b000000#6 => .instr (.sll (fRt w) (fRd w) (fShamt w))
  | 0b000010#6 => .instr (.srl (fRt w) (fRd w) (fShamt w))
  | 0b000011#6 => .instr (.sra (fRt w) (fRd w) (fShamt w))
  | 0b000100#6 => .instr (.sllv (fRs w) (fRt w) (fRd w))
  | 0b000110#6 => .instr (.srlv (fRs w) (fRt w) (fRd w))
  | 0b000111#6 => .instr (.srav (fRs w) (fRt w) (fRd w))
  | 0b011000#6 => .instr (.mult (fRs w) (fRt w))
  | 0b011001#6 => .instr (.multu (fRs w) (fRt w))
  | 0b011010#6 => .instr (.div (fRs w) (fRt w))
  | 0b011011#6 => .instr (.divu (fRs w) (fRt w))
  | 0b010000#6 => .instr (.mfhi (fRd w))
  | 0b010001#6 => .instr (.mthi (fRs w))
  | 0b010010#6 => .instr (.mflo (fRd w))
  | 0b010011#6 => .instr (.mtlo (fRs w))
  | 0b101010#6 => .instr (.slt (fRs w) (fRt w) (fRd w))
  | 0b101011#6 => .instr (.sltu (fRs w) (fRt w) (fRd w))
  | 0b001000#6 => .instr (.jr (fRs w))
  | 0b001001#6 => .instr (.jalr (fRs w) (fRd w))
  | fn => .rejected (.funct fn)

/-- The words of opcode 000001, by `rt` (rule R78). -/
def decodeRegimm (w : Word) : Decoded :=
  match fRt w with
  | 0b00000#5 => .instr (.bltz (fRs w) (fImm w))
  | 0b00001#5 => .instr (.bgez (fRs w) (fImm w))
  | rt => .rejected (.regimmRt rt)

/-- `decode(w)`, the primary map by `opcode` (rules R76, R79, R80). Only `opcode`, `funct` and `rt` take part in
recognising a word (rule R73). -/
def decodeWord (w : Word) : Decoded :=
  match fOpcode w with
  | 0b000000#6 => decodeSpecial w
  | 0b000001#6 => decodeRegimm w
  | 0b000010#6 => .instr (.j (fIndex w))
  | 0b000011#6 => .instr (.jal (fIndex w))
  | 0b000100#6 => .instr (.beq (fRs w) (fRt w) (fImm w))
  | 0b000101#6 => .instr (.bne (fRs w) (fRt w) (fImm w))
  | 0b000110#6 => if fRt w = 0#5 then .instr (.blez (fRs w) (fImm w)) else .rejected (.branchRt (fOpcode w) (fRt w))
  | 0b000111#6 => if fRt w = 0#5 then .instr (.bgtz (fRs w) (fImm w)) else .rejected (.branchRt (fOpcode w) (fRt w))
  | 0b001000#6 => .instr (.addi (fRs w) (fRt w) (fImm w))
  | 0b001001#6 => .instr (.addiu (fRs w) (fRt w) (fImm w))
  | 0b001010#6 => .instr (.slti (fRs w) (fRt w) (fImm w))
  | 0b001011#6 => .instr (.sltiu (fRs w) (fRt w) (fImm w))
  | 0b001100#6 => .instr (.andi (fRs w) (fRt w) (fImm w))
  | 0b001101#6 => .instr (.ori (fRs w) (fRt w) (fImm w))
  | 0b001110#6 => .instr (.xori (fRs w) (fRt w) (fImm w))
  | 0b001111#6 => .instr (.lui (fRt w) (fImm w))
  | 0b100000#6 => .instr (.lb (fRs w) (fRt w) (fImm w))
  | 0b100001#6 => .instr (.lh (fRs w) (fRt w) (fImm w))
  | 0b100011#6 => .instr (.lw (fRs w) (fRt w) (fImm w))
  | 0b100100#6 => .instr (.lbu (fRs w) (fRt w) (fImm w))
  | 0b100101#6 => .instr (.lhu (fRs w) (fRt w) (fImm w))
  | 0b101000#6 => .instr (.sb (fRs w) (fRt w) (fImm w))
  | 0b101001#6 => .instr (.sh (fRs w) (fRt w) (fImm w))
  | 0b101011#6 => .instr (.sw (fRs w) (fRt w) (fImm w))
  | op => .rejected (.opcode op)

/-! ### Bytes -/

/-- The word whose bytes, lowest address first, are `b0 b1 b2 b3`: little-endian (rule R43, D17; log 4). -/
def wordOfBytes (b0 b1 b2 b3 : Byte) : Word := b3 ++ b2 ++ b1 ++ b0

/-- The four bytes of a word, lowest address first (D17). -/
def bytesOfWord (w : Word) : List Byte :=
  [w.extractLsb' 0 8, w.extractLsb' 8 8, w.extractLsb' 16 8, w.extractLsb' 24 8]

/-- Decoding bytes, lowest address first; an instruction is four of them (rules R70, R83). -/
def decodeBytes : List Byte → Decoded
  | b0 :: b1 :: b2 :: b3 :: _ => decodeWord (wordOfBytes b0 b1 b2 b3)
  | _ => .rejected .truncated

/-- The word of a table row's bits `w`, of which the table gives `nbits`; the bits above are 0. -/
def tableWord (nbits w : Nat) : Word := BitVec.ofNat 32 (w % 2 ^ nbits)

/-- The instruction the decoder reads from a table row's word, laid out as the hardware stores it. -/
def decodeTableWord (nbits w : Nat) : Option Instr :=
  match decodeBytes (bytesOfWord (tableWord nbits w)) with
  | .instr i => some i
  | .rejected _ => none

/-! ### The encoder -/

/-- An R-type word (rule R70); its opcode is 000000 (rule R72). -/
def rType (rs rt rd : Reg) (shamt : Shamt) (funct : BitVec 6) : Word :=
  0b000000#6 ++ rs ++ rt ++ rd ++ shamt ++ funct

/-- An I-type word (rule R70). -/
def iType (op : BitVec 6) (rs rt : Reg) (imm : Imm16) : Word := op ++ rs ++ rt ++ imm

/-- A J-type word (rule R70). -/
def jType (op : BitVec 6) (index : Index26) : Word := op ++ index

/-- The word of an instruction; a field it ignores is 0 (rule R84, last paragraph). -/
def encode : Instr → Word
  | .add rs rt rd => rType rs rt rd 0#5 0b100000#6
  | .addu rs rt rd => rType rs rt rd 0#5 0b100001#6
  | .sub rs rt rd => rType rs rt rd 0#5 0b100010#6
  | .subu rs rt rd => rType rs rt rd 0#5 0b100011#6
  | .addi rs rt imm => iType 0b001000#6 rs rt imm
  | .addiu rs rt imm => iType 0b001001#6 rs rt imm
  | .and rs rt rd => rType rs rt rd 0#5 0b100100#6
  | .or rs rt rd => rType rs rt rd 0#5 0b100101#6
  | .xor rs rt rd => rType rs rt rd 0#5 0b100110#6
  | .nor rs rt rd => rType rs rt rd 0#5 0b100111#6
  | .sll rt rd shamt => rType 0#5 rt rd shamt 0b000000#6
  | .srl rt rd shamt => rType 0#5 rt rd shamt 0b000010#6
  | .sra rt rd shamt => rType 0#5 rt rd shamt 0b000011#6
  | .sllv rs rt rd => rType rs rt rd 0#5 0b000100#6
  | .srlv rs rt rd => rType rs rt rd 0#5 0b000110#6
  | .srav rs rt rd => rType rs rt rd 0#5 0b000111#6
  | .andi rs rt imm => iType 0b001100#6 rs rt imm
  | .ori rs rt imm => iType 0b001101#6 rs rt imm
  | .xori rs rt imm => iType 0b001110#6 rs rt imm
  | .mult rs rt => rType rs rt 0#5 0#5 0b011000#6
  | .multu rs rt => rType rs rt 0#5 0#5 0b011001#6
  | .div rs rt => rType rs rt 0#5 0#5 0b011010#6
  | .divu rs rt => rType rs rt 0#5 0#5 0b011011#6
  | .mfhi rd => rType 0#5 0#5 rd 0#5 0b010000#6
  | .mthi rs => rType rs 0#5 0#5 0#5 0b010001#6
  | .mflo rd => rType 0#5 0#5 rd 0#5 0b010010#6
  | .mtlo rs => rType rs 0#5 0#5 0#5 0b010011#6
  | .slt rs rt rd => rType rs rt rd 0#5 0b101010#6
  | .sltu rs rt rd => rType rs rt rd 0#5 0b101011#6
  | .slti rs rt imm => iType 0b001010#6 rs rt imm
  | .sltiu rs rt imm => iType 0b001011#6 rs rt imm
  | .lui rt imm => iType 0b001111#6 0#5 rt imm
  | .bltz rs imm => iType 0b000001#6 rs 0b00000#5 imm
  | .bgez rs imm => iType 0b000001#6 rs 0b00001#5 imm
  | .beq rs rt imm => iType 0b000100#6 rs rt imm
  | .bne rs rt imm => iType 0b000101#6 rs rt imm
  | .blez rs imm => iType 0b000110#6 rs 0b00000#5 imm
  | .bgtz rs imm => iType 0b000111#6 rs 0b00000#5 imm
  | .jr rs => rType rs 0#5 0#5 0#5 0b001000#6
  | .jalr rs rd => rType rs 0#5 rd 0#5 0b001001#6
  | .j index => jType 0b000010#6 index
  | .jal index => jType 0b000011#6 index
  | .lb rs rt imm => iType 0b100000#6 rs rt imm
  | .lh rs rt imm => iType 0b100001#6 rs rt imm
  | .lw rs rt imm => iType 0b100011#6 rs rt imm
  | .lbu rs rt imm => iType 0b100100#6 rs rt imm
  | .lhu rs rt imm => iType 0b100101#6 rs rt imm
  | .sb rs rt imm => iType 0b101000#6 rs rt imm
  | .sh rs rt imm => iType 0b101001#6 rs rt imm
  | .sw rs rt imm => iType 0b101011#6 rs rt imm

/-! ### The opcode table -/

/-- The mnemonic of an instruction, as `opcode_table.json` spells it. -/
def Instr.mnemonic : Instr → String
  | .add _ _ _ => "add"
  | .addu _ _ _ => "addu"
  | .sub _ _ _ => "sub"
  | .subu _ _ _ => "subu"
  | .addi _ _ _ => "addi"
  | .addiu _ _ _ => "addiu"
  | .and _ _ _ => "and"
  | .or _ _ _ => "or"
  | .xor _ _ _ => "xor"
  | .nor _ _ _ => "nor"
  | .sll _ _ _ => "sll"
  | .srl _ _ _ => "srl"
  | .sra _ _ _ => "sra"
  | .sllv _ _ _ => "sllv"
  | .srlv _ _ _ => "srlv"
  | .srav _ _ _ => "srav"
  | .andi _ _ _ => "andi"
  | .ori _ _ _ => "ori"
  | .xori _ _ _ => "xori"
  | .mult _ _ => "mult"
  | .multu _ _ => "multu"
  | .div _ _ => "div"
  | .divu _ _ => "divu"
  | .mfhi _ => "mfhi"
  | .mthi _ => "mthi"
  | .mflo _ => "mflo"
  | .mtlo _ => "mtlo"
  | .slt _ _ _ => "slt"
  | .sltu _ _ _ => "sltu"
  | .slti _ _ _ => "slti"
  | .sltiu _ _ _ => "sltiu"
  | .lui _ _ => "lui"
  | .bltz _ _ => "bltz"
  | .bgez _ _ => "bgez"
  | .beq _ _ _ => "beq"
  | .bne _ _ _ => "bne"
  | .blez _ _ => "blez"
  | .bgtz _ _ => "bgtz"
  | .jr _ => "jr"
  | .jalr _ _ => "jalr"
  | .j _ => "j"
  | .jal _ => "jal"
  | .lb _ _ _ => "lb"
  | .lh _ _ _ => "lh"
  | .lw _ _ _ => "lw"
  | .lbu _ _ _ => "lbu"
  | .lhu _ _ _ => "lhu"
  | .sb _ _ _ => "sb"
  | .sh _ _ _ => "sh"
  | .sw _ _ _ => "sw"

/-- The `mask` of an instruction's row of `opcode_table.json`: the bits that are fixed. -/
def Instr.mask : Instr → Word
  | .add _ _ _ => 0xFC00003F#32
  | .addu _ _ _ => 0xFC00003F#32
  | .sub _ _ _ => 0xFC00003F#32
  | .subu _ _ _ => 0xFC00003F#32
  | .addi _ _ _ => 0xFC000000#32
  | .addiu _ _ _ => 0xFC000000#32
  | .and _ _ _ => 0xFC00003F#32
  | .or _ _ _ => 0xFC00003F#32
  | .xor _ _ _ => 0xFC00003F#32
  | .nor _ _ _ => 0xFC00003F#32
  | .sll _ _ _ => 0xFC00003F#32
  | .srl _ _ _ => 0xFC00003F#32
  | .sra _ _ _ => 0xFC00003F#32
  | .sllv _ _ _ => 0xFC00003F#32
  | .srlv _ _ _ => 0xFC00003F#32
  | .srav _ _ _ => 0xFC00003F#32
  | .andi _ _ _ => 0xFC000000#32
  | .ori _ _ _ => 0xFC000000#32
  | .xori _ _ _ => 0xFC000000#32
  | .mult _ _ => 0xFC00003F#32
  | .multu _ _ => 0xFC00003F#32
  | .div _ _ => 0xFC00003F#32
  | .divu _ _ => 0xFC00003F#32
  | .mfhi _ => 0xFC00003F#32
  | .mthi _ => 0xFC00003F#32
  | .mflo _ => 0xFC00003F#32
  | .mtlo _ => 0xFC00003F#32
  | .slt _ _ _ => 0xFC00003F#32
  | .sltu _ _ _ => 0xFC00003F#32
  | .slti _ _ _ => 0xFC000000#32
  | .sltiu _ _ _ => 0xFC000000#32
  | .lui _ _ => 0xFC000000#32
  | .bltz _ _ => 0xFC1F0000#32
  | .bgez _ _ => 0xFC1F0000#32
  | .beq _ _ _ => 0xFC000000#32
  | .bne _ _ _ => 0xFC000000#32
  | .blez _ _ => 0xFC1F0000#32
  | .bgtz _ _ => 0xFC1F0000#32
  | .jr _ => 0xFC00003F#32
  | .jalr _ _ => 0xFC00003F#32
  | .j _ => 0xFC000000#32
  | .jal _ => 0xFC000000#32
  | .lb _ _ _ => 0xFC000000#32
  | .lh _ _ _ => 0xFC000000#32
  | .lw _ _ _ => 0xFC000000#32
  | .lbu _ _ _ => 0xFC000000#32
  | .lhu _ _ _ => 0xFC000000#32
  | .sb _ _ _ => 0xFC000000#32
  | .sh _ _ _ => 0xFC000000#32
  | .sw _ _ _ => 0xFC000000#32

/-- The `match` of an instruction's row of `opcode_table.json`: the values of the fixed bits. -/
def Instr.matchBits : Instr → Word
  | .add _ _ _ => 0x00000020#32
  | .addu _ _ _ => 0x00000021#32
  | .sub _ _ _ => 0x00000022#32
  | .subu _ _ _ => 0x00000023#32
  | .addi _ _ _ => 0x20000000#32
  | .addiu _ _ _ => 0x24000000#32
  | .and _ _ _ => 0x00000024#32
  | .or _ _ _ => 0x00000025#32
  | .xor _ _ _ => 0x00000026#32
  | .nor _ _ _ => 0x00000027#32
  | .sll _ _ _ => 0x00000000#32
  | .srl _ _ _ => 0x00000002#32
  | .sra _ _ _ => 0x00000003#32
  | .sllv _ _ _ => 0x00000004#32
  | .srlv _ _ _ => 0x00000006#32
  | .srav _ _ _ => 0x00000007#32
  | .andi _ _ _ => 0x30000000#32
  | .ori _ _ _ => 0x34000000#32
  | .xori _ _ _ => 0x38000000#32
  | .mult _ _ => 0x00000018#32
  | .multu _ _ => 0x00000019#32
  | .div _ _ => 0x0000001A#32
  | .divu _ _ => 0x0000001B#32
  | .mfhi _ => 0x00000010#32
  | .mthi _ => 0x00000011#32
  | .mflo _ => 0x00000012#32
  | .mtlo _ => 0x00000013#32
  | .slt _ _ _ => 0x0000002A#32
  | .sltu _ _ _ => 0x0000002B#32
  | .slti _ _ _ => 0x28000000#32
  | .sltiu _ _ _ => 0x2C000000#32
  | .lui _ _ => 0x3C000000#32
  | .bltz _ _ => 0x04000000#32
  | .bgez _ _ => 0x04010000#32
  | .beq _ _ _ => 0x10000000#32
  | .bne _ _ _ => 0x14000000#32
  | .blez _ _ => 0x18000000#32
  | .bgtz _ _ => 0x1C000000#32
  | .jr _ => 0x00000008#32
  | .jalr _ _ => 0x00000009#32
  | .j _ => 0x08000000#32
  | .jal _ => 0x0C000000#32
  | .lb _ _ _ => 0x80000000#32
  | .lh _ _ _ => 0x84000000#32
  | .lw _ _ _ => 0x8C000000#32
  | .lbu _ _ _ => 0x90000000#32
  | .lhu _ _ _ => 0x94000000#32
  | .sb _ _ _ => 0xA0000000#32
  | .sh _ _ _ => 0xA4000000#32
  | .sw _ _ _ => 0xAC000000#32

/-- A row of `opcode_table.json`. -/
structure OpRow where
  mnemonic : String
  mask : Word
  bits : Word
  deriving DecidableEq, Repr

/-- `(w AND mask) = match` (rule R80). -/
def OpRow.recognises (r : OpRow) (w : Word) : Bool := w &&& r.mask == r.bits

/-- `opcode_table.json`, the part that recognises a word: its 50 rows in order. -/
def opcodeTable : List OpRow := [
  { mnemonic := "add", mask := 0xFC00003F#32, bits := 0x00000020#32 },
  { mnemonic := "addu", mask := 0xFC00003F#32, bits := 0x00000021#32 },
  { mnemonic := "sub", mask := 0xFC00003F#32, bits := 0x00000022#32 },
  { mnemonic := "subu", mask := 0xFC00003F#32, bits := 0x00000023#32 },
  { mnemonic := "addi", mask := 0xFC000000#32, bits := 0x20000000#32 },
  { mnemonic := "addiu", mask := 0xFC000000#32, bits := 0x24000000#32 },
  { mnemonic := "and", mask := 0xFC00003F#32, bits := 0x00000024#32 },
  { mnemonic := "or", mask := 0xFC00003F#32, bits := 0x00000025#32 },
  { mnemonic := "xor", mask := 0xFC00003F#32, bits := 0x00000026#32 },
  { mnemonic := "nor", mask := 0xFC00003F#32, bits := 0x00000027#32 },
  { mnemonic := "sll", mask := 0xFC00003F#32, bits := 0x00000000#32 },
  { mnemonic := "srl", mask := 0xFC00003F#32, bits := 0x00000002#32 },
  { mnemonic := "sra", mask := 0xFC00003F#32, bits := 0x00000003#32 },
  { mnemonic := "sllv", mask := 0xFC00003F#32, bits := 0x00000004#32 },
  { mnemonic := "srlv", mask := 0xFC00003F#32, bits := 0x00000006#32 },
  { mnemonic := "srav", mask := 0xFC00003F#32, bits := 0x00000007#32 },
  { mnemonic := "andi", mask := 0xFC000000#32, bits := 0x30000000#32 },
  { mnemonic := "ori", mask := 0xFC000000#32, bits := 0x34000000#32 },
  { mnemonic := "xori", mask := 0xFC000000#32, bits := 0x38000000#32 },
  { mnemonic := "mult", mask := 0xFC00003F#32, bits := 0x00000018#32 },
  { mnemonic := "multu", mask := 0xFC00003F#32, bits := 0x00000019#32 },
  { mnemonic := "div", mask := 0xFC00003F#32, bits := 0x0000001A#32 },
  { mnemonic := "divu", mask := 0xFC00003F#32, bits := 0x0000001B#32 },
  { mnemonic := "mfhi", mask := 0xFC00003F#32, bits := 0x00000010#32 },
  { mnemonic := "mthi", mask := 0xFC00003F#32, bits := 0x00000011#32 },
  { mnemonic := "mflo", mask := 0xFC00003F#32, bits := 0x00000012#32 },
  { mnemonic := "mtlo", mask := 0xFC00003F#32, bits := 0x00000013#32 },
  { mnemonic := "slt", mask := 0xFC00003F#32, bits := 0x0000002A#32 },
  { mnemonic := "sltu", mask := 0xFC00003F#32, bits := 0x0000002B#32 },
  { mnemonic := "slti", mask := 0xFC000000#32, bits := 0x28000000#32 },
  { mnemonic := "sltiu", mask := 0xFC000000#32, bits := 0x2C000000#32 },
  { mnemonic := "lui", mask := 0xFC000000#32, bits := 0x3C000000#32 },
  { mnemonic := "bltz", mask := 0xFC1F0000#32, bits := 0x04000000#32 },
  { mnemonic := "bgez", mask := 0xFC1F0000#32, bits := 0x04010000#32 },
  { mnemonic := "beq", mask := 0xFC000000#32, bits := 0x10000000#32 },
  { mnemonic := "bne", mask := 0xFC000000#32, bits := 0x14000000#32 },
  { mnemonic := "blez", mask := 0xFC1F0000#32, bits := 0x18000000#32 },
  { mnemonic := "bgtz", mask := 0xFC1F0000#32, bits := 0x1C000000#32 },
  { mnemonic := "jr", mask := 0xFC00003F#32, bits := 0x00000008#32 },
  { mnemonic := "jalr", mask := 0xFC00003F#32, bits := 0x00000009#32 },
  { mnemonic := "j", mask := 0xFC000000#32, bits := 0x08000000#32 },
  { mnemonic := "jal", mask := 0xFC000000#32, bits := 0x0C000000#32 },
  { mnemonic := "lb", mask := 0xFC000000#32, bits := 0x80000000#32 },
  { mnemonic := "lh", mask := 0xFC000000#32, bits := 0x84000000#32 },
  { mnemonic := "lw", mask := 0xFC000000#32, bits := 0x8C000000#32 },
  { mnemonic := "lbu", mask := 0xFC000000#32, bits := 0x90000000#32 },
  { mnemonic := "lhu", mask := 0xFC000000#32, bits := 0x94000000#32 },
  { mnemonic := "sb", mask := 0xFC000000#32, bits := 0xA0000000#32 },
  { mnemonic := "sh", mask := 0xFC000000#32, bits := 0xA4000000#32 },
  { mnemonic := "sw", mask := 0xFC000000#32, bits := 0xAC000000#32 }]

end Sys2Proof
end

