-- ==== Sys2Proof/Config.lean ====
section
/-! DEFINITION. What an implementation or a platform fixes: the parameters of a run
(`92_eei_decisions.md`, `00_scope.md` rule R8), and the FREE VALUES, opaque constants without a body
that stand for every value the document leaves open (`93_implementation_defined.md`). -/

namespace Sys2Proof

/-- The parameters of a run (`10_state.md` rule R34), constant during a run. `PROGRAM` is
`State.rom` and `DM_INIT` is `State.ram` of the state a run starts from; `DIV_CORNER` is
`Config.divCorner`. -/
structure Params where
  /-- `IM_BASE`, the first byte address of the instruction window (D5). -/
  imBase : Nat
  /-- `IM_SIZE`, the number of bytes of the instruction window (D5). -/
  imSize : Nat
  /-- `DM_BASE`, the first byte address of the data window (D6). -/
  dmBase : Nat
  /-- `DM_SIZE`, the number of bytes of the data window (D6). -/
  dmSize : Nat
  /-- `ILLEGAL_AS_NOP`: an unrecognised word only advances `pc` (D10). -/
  illegalAsNop : Bool
  /-- `HALT_PC`: where a run is said to end (D16); `none` when no end is given. -/
  haltPC : Option Word
  deriving DecidableEq, Repr

/-- The defaults the spec offers (`20_memory.md` rule R53, `92_eei_decisions.md`); `HALT_PC` has no
default in the hardware (rule R248). -/
def Params.default : Params :=
  { imBase := 0x3000, imSize := 0x4000, dmBase := 0, dmSize := 0x3000,
    illegalAsNop := false, haltPC := none }

/-- The two division instructions, first argument of `DIV_CORNER` (rule R140). -/
inductive DivOp where
  | div
  | divu
  deriving DecidableEq, Repr

/-- FREE VALUE. `DIV_CORNER(op, x[rs], x[rt])` as the pair (`HI`, `LO`): the results the document does not
give, a divisor of zero and the signed quotient of `-2^31` by `-1` (rule R140, D13, D14). -/
opaque Config.divCorner : DivOp → Word → Word → Word × Word

/-- FREE VALUE. What the lanes of `m_data_wdata` that `m_data_byteen` does not enable hold (rule R49,
U8); the argument is the number of events before the store, so that each store has its own. -/
opaque Config.idleLanes : Nat → Word

/-! ### Free values of the pipeline level (`93_implementation_defined.md` U11, U12) -/

/-- FREE VALUE. `CompSel` of a word that is no branch, from the decoder's inputs `opcode`, `funct`, `rt` (U12). -/
opaque Config.openCompSel : BitVec 6 → BitVec 6 → BitVec 5 → BitVec 3

/-- FREE VALUE. `OPSel` of a class that does not use the ALU result (U12). -/
opaque Config.openOPSel : BitVec 6 → BitVec 6 → BitVec 5 → BitVec 2

/-- FREE VALUE. `FuncSel` of a class that does not use the ALU result (U12). -/
opaque Config.openFuncSel : BitVec 6 → BitVec 6 → BitVec 5 → BitVec 2

/-- FREE VALUE. COMP's output under the unused codes 010 and 011 of `CompSel` (U12). -/
opaque Config.openComp : BitVec 3 → Word → Word → Bool

/-- FREE VALUE. EXT's output under the unused code 11 of `EXTSel` (U12). -/
opaque Config.openExt : Imm16 → Word

/-- FREE VALUE. The ALU's output under a pair (`OPSel`, `FuncSel`) that no instruction has (U12). -/
opaque Config.openALU : BitVec 2 → BitVec 2 → Word → Word → Word

/-- FREE VALUE. `GRF_A3` under the unused code 01 of `GRF_A3_D_Sel` (U12). -/
opaque Config.openA3 : Reg → Reg → Reg

/-- FREE VALUE. A D-stage forwarding multiplexer's output under the unused codes 001, 010 (U12). -/
opaque Config.openFMUXD : BitVec 3 → Word → Word

/-- FREE VALUE. An E-stage forwarding multiplexer's output under the unused code 01 (U12). -/
opaque Config.openFMUXE : Word → Word

/-- FREE VALUE. DM's output `Q` under a pair (`DMSel`, `A[1:0]`) that no legal load has (U12, rule R51). -/
opaque Config.openQ : BitVec 3 → BitVec 2 → Word → Word

/-- FREE VALUE. `m_data_byteen` in the cells of the `byteen` table that the document marks `/` (rule R49). -/
opaque Config.openByteen : BitVec 3 → BitVec 2 → BitVec 4

/-- FREE VALUE. MULT's output `HILO` under a code of `MULTSel` that reads neither register (rule R139). -/
opaque Config.openHILO : BitVec 3 → Word → Word → Word

/-- FREE VALUE. DM's `wdata` in the lanes it does not enable, from DM's inputs `DMSel`, `A`, `D`, `rdata` (rule R49, U8). -/
opaque Config.openWdata : BitVec 3 → Word → Word → Word → Word

/-- FREE VALUE. `Tuse_rs` and `Tuse_rt` of a word of no class, under `ILLEGAL_AS_NOP` (rule R81): time only. -/
opaque Config.openTuse : BitVec 6 → BitVec 6 → BitVec 5 → BitVec 2 × BitVec 2

/-- FREE VALUE. What the external RAM returns for an address outside the data window (D7, U11). -/
opaque Config.openRdata : Word → Word

end Sys2Proof
end

