-- ==== Sys2Proof/Machine/State.lean ====
section
/-! DEFINITION. The architectural state (`10_state.md` rules R20 to R35) as plain data, the model's faults
and refusals, and the machine right after reset (rule R33). The pipeline-level state is in
`Machine/PipeState.lean` (rules R15, R31; log 16). -/

namespace Sys2Proof.Machine

/-- A byte-addressed memory: the listed bytes, addresses strictly rising. What an unlisted address
reads as is the reader's own: `ramUnlisted` for the data RAM, no byte for the instruction ROM. -/
abbrev Memory := List Host.Cell

/-- The 31 storage registers of the GRF: `x[i]` stands at place `i - 1`; register 0 has no storage (rule R21). -/
abbrev Regs := Vector Word 31

/-- What the core's output ports show (rules R23, R35, R49). -/
inductive Event where
  /-- `w_grf_we` = 1: `w_grf_addr`, `w_grf_wdata`; also for register 0, where nothing is stored (rule R23). -/
  | regWrite (addr : Reg) (value : Word)
  /-- `m_data_byteen` not 0000: `m_data_addr` in full, the enables, and `m_data_wdata` (rule R49). -/
  | memWrite (addr : Word) (byteen : BitVec 4) (wdata : Word)
  deriving DecidableEq, Repr

/-- The architectural state (rule R20), the parameters and memories of the run (rule R34) and the reset input
(rule R32). `delaySlot` and `events` are the model's own fields (log 9, log 13). -/
structure State where
  /-- `x[1] .. x[31]` (rule R21). -/
  gpr : Regs
  /-- The address of the instruction being executed (rules R24, R25). -/
  pc : Word
  /-- The address of the instruction that executes next (rule R25). -/
  npc : Word
  /-- `HI` (rule R27). -/
  hi : Word
  /-- `LO` (rule R27). -/
  lo : Word
  /-- The data memory, the external RAM (rules R20, R40). -/
  ram : Memory
  /-- The instruction memory, the external ROM: `PROGRAM` (rules R34, R42, R43). -/
  rom : Memory
  /-- The instruction at `pc` is the delay-slot instruction of a control transfer (rule R215, check 4). -/
  delaySlot : Bool
  /-- The input `RESET` is active (rules R32, R240). -/
  resetPin : Bool
  /-- The parameters of the run (rule R34). -/
  params : Params
  /-- What the ports have shown so far, oldest first (rule R35). -/
  events : List Event
  deriving DecidableEq, Repr

/-- Where the model stops because the document gives no behaviour (rules R211, R215); the hardware itself
raises nothing (rule R210). A fault changes no state. All four are SAFE: the model stops where the
hardware goes on in a way no source states. -/
inductive Fault where
  /-- Fetch at an address outside the instruction window or past the given program: "no step", D7 (rules R43,
  R215 check 1). Raised by `step`. Safe, log 5. -/
  | outsideInstructionMemory (addr : Word)
  /-- An instruction address that is no multiple of 4: at the fetch (R215 check 2), raised by `step`, or as the
  target of jr or jalr (check 5), raised by these two (D9, rule R26). Safe, log 7. -/
  | misalignedInstructionAddress (addr : Word)
  /-- A halfword or word access at a misaligned address (rule R51, R199; D8). Raised by lh, lhu, lw, sh, sw.
  Safe, log 6. -/
  | misalignedDataAccess (addr : Word)
  /-- A data access that is not wholly inside the data window: "no step", D7 (rule R53). Raised by the eight loads
  and stores. Safe, log 5. -/
  | outsideDataMemory (addr : Word)
  deriving DecidableEq, Repr

/-- Where the model declines to give a meaning (rules R211, R215). Each is SAFE. -/
inductive Refusal where
  /-- An instruction of the table whose meaning is not written; raised by `exec` only. Safe. No arm raises it. -/
  | notModelled (mnemonic : String)
  /-- A word that matches no row of the opcode table, unless `ILLEGAL_AS_NOP` (rule R81, D10). Raised by `step`.
  Safe, log 8. -/
  | unrecognisedInstruction (word : Word)
  /-- A branch or jump in a delay slot (rules R167, R186; D11). Raised by the ten control transfers. Safe, log 9. -/
  | controlTransferInDelaySlot
  deriving DecidableEq, Repr

/-- The machine right after reset (rules R33, R241): `pc` = 0x00003000 (stated), `npc` = 0x00003004 (derived from
it), the general registers, `HI` and `LO` zero (the spec's own choices D3, D4; log 1), the default parameters
(log 3), no program loaded (log 4) and `DM_INIT` all zero (log 2). -/
def State.reset : State :=
  { gpr := Vector.replicate 31 0#32, pc := 0x00003000#32, npc := 0x00003004#32, hi := 0#32, lo := 0#32,
    ram := [], rom := [], delaySlot := false, resetPin := false, params := Params.default, events := [] }

end Sys2Proof.Machine
end

