-- ==== Sys2Proof/Machine/Ops.lean ====
section
/-! DEFINITION. The named operations over registers, memories and the program counters, and the RESET edge.
Every meaning is written over these. There is no operation for taking an exception or returning from
one: the hardware has neither (`60_exceptions.md` rules R210, R214, R216, R217). -/

namespace Sys2Proof.Machine

/-- What one instruction, or one step, answers. -/
abbrev Result := Host.Outcome State Fault Refusal

/-! ### General registers (rule R21) -/

/-- `x[r]` of a register file; register 0 is tied to ground. -/
def readReg (g : Regs) (r : Reg) : Word :=
  if r = 0#5 then 0#32 else g[r.toNat - 1]'(by have := r.isLt; omega)

/-- `x[r] <- v` on a register file; discarded when `r` is 0. -/
def writeReg (g : Regs) (r : Reg) (v : Word) : Regs :=
  if r = 0#5 then g else g.set (r.toNat - 1) v (by have := r.isLt; omega)

/-- `x[r]` (rules R13, R21). -/
def State.x (s : State) (r : Reg) : Word := readReg s.gpr r

/-- `x[r] <- v` (rules R13, R21), without the port event. -/
def State.setX (s : State) (r : Reg) (v : Word) : State := { s with gpr := writeReg s.gpr r v }

/-- Append what a port shows (rule R35). -/
def State.record (s : State) (e : Event) : State := { s with events := s.events ++ [e] }

/-- The write-back of an instruction whose `GRFWE` is 1: the register, and the event of the write port, which
shows a destination of 0 too (rule R23). -/
def State.writeBack (s : State) (r : Reg) (v : Word) : State := (s.setX r v).record (.regWrite r v)

/-! ### HI and LO (rule R27) -/

/-- `HI <- v`. -/
def State.setHi (s : State) (v : Word) : State := { s with hi := v }

/-- `LO <- v`. -/
def State.setLo (s : State) (v : Word) : State := { s with lo := v }

/-! ### Sequencing (rule R25) -/

/-- `pc <- npc`, `npc <- t`; `slot` says whether the next instruction is a delay-slot instruction. -/
def State.advanceTo (s : State) (t : Word) (slot : Bool) : State :=
  { s with pc := s.npc, npc := t, delaySlot := slot }

/-- The sequential update of every instruction that is no control transfer: `pc <- npc`, `npc <- npc + 4`,
modulo 2^32 (rules R25, R26). -/
def State.advance (s : State) : State := s.advanceTo (s.npc + 4#32) false

/-- A control transfer: refused in a delay slot (rules R167, R186, D11), else `k`. -/
def State.controlTransfer (s : State) (k : Result) : Result :=
  if s.delaySlot then .refused .controlTransferInDelaySlot else k

/-- Is `a` a multiple of 4, as an instruction address must be (rule R26)? -/
def instrAligned (a : Word) : Bool := a.toNat % 4 == 0

/-! ### Memories as data -/

/-- The byte listed at address `a`, if any. -/
def Memory.find? : Memory → Nat → Option Byte
  | [], _ => none
  | (k, b) :: m, a => if k = a then some b else Memory.find? m a

/-- List byte `b` at address `a`, keeping the addresses rising. -/
def Memory.insert : Memory → Nat → Byte → Memory
  | [], a, b => [(a, b)]
  | (k, c) :: m, a, b =>
    if a < k then (a, b) :: (k, c) :: m
    else if a = k then (a, b) :: m
    else (k, c) :: Memory.insert m a b

/-- List no byte at address `a`. -/
def Memory.erase : Memory → Nat → Memory
  | [], _ => []
  | (k, c) :: m, a => if k = a then m else (k, c) :: Memory.erase m a

/-- The addresses are strictly rising. -/
def Memory.rising : Memory → Bool
  | [] => true
  | [_] => true
  | c :: d :: m => decide (c.1 < d.1) && Memory.rising (d :: m)

/-! ### The data RAM (rules R44 to R48) -/

/-- What an address of the data window that nothing has written reads as: the default of `DM_INIT` (D6), a DESIGN
CHOICE of the spec, unsafe, log 2. Another `DM_INIT` is a state whose RAM lists it. -/
def ramUnlisted : Byte := 0#8

/-- The canonical form of the RAM: addresses rising, and no entry equal to what an unlisted address reads as. -/
def Memory.wf (m : Memory) : Bool := m.rising && m.all (fun c => c.2 != ramUnlisted)

/-- The byte of the RAM at address `a`. -/
def ramByte (m : Memory) (a : Nat) : Byte := (m.find? a).getD ramUnlisted

/-- The RAM with byte `b` at address `a`, in canonical form. -/
def ramPut (m : Memory) (a : Nat) (b : Byte) : Memory :=
  if b = ramUnlisted then m.erase a else m.insert a b

/-- The bytes `bs` stored from address `a` upward. -/
def ramPutBytes (m : Memory) (a : Nat) : List Byte → Memory
  | [] => m
  | b :: bs => ramPutBytes (ramPut m a b) (a + 1) bs

/-- The 32-bit word at the aligned address `addr - (addr mod 4)`, which the RAM returns (rules R44, R50, D18;
log 23): byte `a` of memory in bits `8*(a mod 4)+7 .. 8*(a mod 4)` (rule R45). -/
def ramWord (m : Memory) (addr : Word) : Word :=
  let a := addr.toNat - addr.toNat % 4
  ramByte m (a + 3) ++ ramByte m (a + 2) ++ ramByte m (a + 1) ++ ramByte m a

/-- `MemRead(addr, n)` (rule R46): the lane of the aligned word that starts at byte `addr mod 4`. -/
def State.memRead (s : State) (addr : Word) (n : Nat) : BitVec (8 * n) :=
  (ramWord s.ram addr).extractLsb' (8 * (addr.toNat % 4)) (8 * n)

/-- The `n` bytes of a value, least significant first (rule R47). -/
def valueBytes (n : Nat) (v : BitVec (8 * n)) : List Byte :=
  (List.range n).map (fun k => v.extractLsb' (8 * k) 8)

/-- `MemWrite(addr, n, v)` (rule R47), without the bus event. -/
def State.memWrite (s : State) (addr : Word) (n : Nat) (v : BitVec (8 * n)) : State :=
  { s with ram := ramPutBytes s.ram addr.toNat (valueBytes n v) }

/-- The window test of rule R53: all `n` bytes from `addr` lie inside the data window. -/
def Params.dataInside (p : Params) (addr : Word) (n : Nat) : Bool :=
  decide (p.dmBase ≤ addr.toNat) && decide (addr.toNat + n ≤ p.dmBase + p.dmSize)

/-- The checks of a data access in the order of rule R215: alignment (check 5, rules R51, R199), then the window
(check 6, rule R53). -/
def dataFault (p : Params) (addr : Word) (n : Nat) : Option Fault :=
  if addr.toNat % n ≠ 0 then some (.misalignedDataAccess addr)
  else if Params.dataInside p addr n then none
  else some (.outsideDataMemory addr)

/-! ### The bus of a store (rule R49) -/

/-- `m_data_byteen` of a legal store of `n` bytes: the lanes from `A[1:0]` on (the `byteen` table of rule R49). -/
def byteen (addr : Word) (n : Nat) : BitVec 4 := BitVec.ofNat 4 (2 ^ n - 1) <<< (addr.toNat % 4)

/-- The 32-bit mask of the lanes that `be` enables: bit `i` of `byteen` enables bits `8i+7 .. 8i` (rule R45). -/
def laneMask (be : BitVec 4) : Word :=
  (be.extractLsb' 3 1).signExtend 8 ++ (be.extractLsb' 2 1).signExtend 8 ++
    (be.extractLsb' 1 1).signExtend 8 ++ (be.extractLsb' 0 1).signExtend 8

/-- `m_data_wdata` of a store: the value in the enabled lanes; what the others hold is the free value `idle`
(rule R49, U8; log 12). -/
def busData (addr : Word) (n : Nat) (v : BitVec (8 * n)) (idle : Word) : Word :=
  ((v.setWidth 32 <<< (8 * (addr.toNat % 4))) &&& laneMask (byteen addr n)) |||
    (idle &&& ~~~laneMask (byteen addr n))

/-- The event of a store of `n` bytes (rules R35, R49); the disabled lanes are free, a new one each time. -/
def State.storeEvent (s : State) (addr : Word) (n : Nat) (v : BitVec (8 * n)) : Event :=
  .memWrite addr (byteen addr n) (busData addr n v (Config.idleLanes s.events.length))

/-! ### Loads and stores -/

/-- A load of `n` bytes at `addr` into `x[rt]`, the value extended by `ext` (rules R46, R191 to R195, R199). -/
def State.load (s : State) (rt : Reg) (addr : Word) (n : Nat) (ext : BitVec (8 * n) → Word) : Result :=
  match dataFault s.params addr n with
  | some f => .fault f
  | none => .next (s.writeBack rt (ext (s.memRead addr n))).advance

/-- A store of the `n`-byte value `v` at `addr` (rules R47, R49, R196 to R199). -/
def State.store (s : State) (addr : Word) (n : Nat) (v : BitVec (8 * n)) : Result :=
  match dataFault s.params addr n with
  | some f => .fault f
  | none => .next ((s.memWrite addr n v).record (s.storeEvent addr n v)).advance

/-! ### The instruction ROM (rule R43) -/

/-- The word of `PROGRAM` at the aligned address of `addr`, when all four bytes are given (rule R43; bytes
little-endian, D17, log 4). -/
def romWord (m : Memory) (addr : Word) : Option Word :=
  let a := addr.toNat - addr.toNat % 4
  match m.find? a, m.find? (a + 1), m.find? (a + 2), m.find? (a + 3) with
  | some b0, some b1, some b2, some b3 => some (wordOfBytes b0 b1 b2 b3)
  | _, _, _, _ => none

/-- The bytes `bs` listed from address `a` upward. -/
def romPutBytes (m : Memory) (a : Nat) : List Byte → Memory
  | [] => m
  | b :: bs => romPutBytes (m.insert a b) (a + 1) bs

/-- What a fetch answers: the word, or the model's stop (rules R43, R215). -/
inductive Fetched where
  | word (w : Word)
  | stop (f : Fault)
  deriving DecidableEq, Repr

/-- `IM_BASE <= addr < IM_BASE + IM_SIZE` (rule R43). -/
def Params.instrInside (p : Params) (addr : Word) : Bool :=
  decide (p.imBase ≤ addr.toNat) && decide (addr.toNat < p.imBase + p.imSize)

/-- `Fetch(addr)` (rule R43) with the checks in the order of rule R215: (1) the window, in which a fetch past the
given words counts as outside (D5, last table of `92_eei_decisions.md`); (2) alignment. -/
def fetchWord (p : Params) (rom : Memory) (addr : Word) : Fetched :=
  match Params.instrInside p addr, romWord rom addr with
  | true, some w => if instrAligned addr then .word w else .stop (.misalignedInstructionAddress addr)
  | _, _ => .stop (.outsideInstructionMemory addr)

/-! ### The RESET edge (rules R33, R240, R241) -/

/-- What a clock edge with `RESET` active does, seen between instructions: `pc`, the GRF, `HI` and `LO` take their
reset values and no transfer is pending; the memories are external and not affected, and neither are the
parameters, the input itself or the trace (log 15). -/
def State.applyReset (s : State) : State :=
  { s with gpr := State.reset.gpr, pc := State.reset.pc, npc := State.reset.npc, hi := State.reset.hi,
           lo := State.reset.lo, delaySlot := false }

end Sys2Proof.Machine
end

