-- ==== Sys2Proof/Machine/Operands.lean ====
section
/-! DEFINITION. The operand forms (`30_encoding.md` rules R74, R75): the three extensions of `imm16`, shift
amounts, the effective address, branch and jump targets, and the link value. -/

namespace Sys2Proof.Machine

/-- `sext_32(imm16)` (rules R12, R74): addi, addiu, slti, sltiu, loads and stores. -/
def sext16 (imm : Imm16) : Word := imm.signExtend 32

/-- `zext_32(imm16)` (rules R12, R74): andi, ori, xori. -/
def zext16 (imm : Imm16) : Word := imm.setWidth 32

/-- `imm16 ‖ zeros(16)` (rule R74): lui. -/
def upper16 (imm : Imm16) : Word := imm ++ 0#16

/-- The shift amount of sllv, srlv, srav: `u(x[rs][4:0])`, the low five bits only (rule R120). -/
def State.shiftAmount (s : State) (rs : Reg) : Shamt := (s.x rs).extractLsb' 0 5

/-- `addr = x[rs] + sext_32(imm16)`, modulo 2^32 (rule R190). -/
def State.effectiveAddress (s : State) (rs : Reg) (imm : Imm16) : Word := s.x rs + sext16 imm

/-- The branch displacement `sext_32(imm16 ‖ 00)` (rule R74). -/
def branchOffset (imm : Imm16) : Word := (imm ++ 0#2 : BitVec 18).signExtend 32

/-- The target of a taken branch: `npc + sext_32(imm16 ‖ 00)`, on the delay slot's address (rule R160). -/
def State.branchTarget (s : State) (imm : Imm16) : Word := s.npc + branchOffset imm

/-- The target of j and jal: `npc[31:28] ‖ instr_index ‖ 00` (rule R180). -/
def State.jumpTarget (s : State) (index : Index26) : Word := s.npc.extractLsb' 28 4 ++ index ++ 0#2

/-- The link value `pc + 8`, modulo 2^32 (rule R185). -/
def State.linkValue (s : State) : Word := s.pc + 8#32

end Sys2Proof.Machine
end

