-- ==== Sys2Proof/Machine/Arith.lean ====
section
/-! DEFINITION. The arithmetic instructions (`40_arithmetic.md`). Each also performs the sequential update of rule R25. -/

namespace Sys2Proof.Machine

/-- `add`: `x[rd] <- x[rs] + x[rt]`, modulo 2^32; no overflow detection (rules R100, R101). -/
def execAdd (rs rt rd : Reg) (s : State) : Result :=
  .next (s.writeBack rd (s.x rs + s.x rt)).advance

/-- `addu`: `x[rd] <- x[rs] + x[rt]`, modulo 2^32 (rule R102). -/
def execAddu (rs rt rd : Reg) (s : State) : Result :=
  .next (s.writeBack rd (s.x rs + s.x rt)).advance

/-- `sub`: `x[rd] <- x[rs] - x[rt]`, modulo 2^32; no overflow detection (rules R100, R103). -/
def execSub (rs rt rd : Reg) (s : State) : Result :=
  .next (s.writeBack rd (s.x rs - s.x rt)).advance

/-- `subu`: `x[rd] <- x[rs] - x[rt]`, modulo 2^32 (rule R104). -/
def execSubu (rs rt rd : Reg) (s : State) : Result :=
  .next (s.writeBack rd (s.x rs - s.x rt)).advance

/-- `addi`: `x[rt] <- x[rs] + sext_32(imm16)`; no overflow detection (rules R100, R105). -/
def execAddi (rs rt : Reg) (imm : Imm16) (s : State) : Result :=
  .next (s.writeBack rt (s.x rs + sext16 imm)).advance

/-- `addiu`: `x[rt] <- x[rs] + sext_32(imm16)` (rule R106). -/
def execAddiu (rs rt : Reg) (imm : Imm16) (s : State) : Result :=
  .next (s.writeBack rt (s.x rs + sext16 imm)).advance


end Sys2Proof.Machine
end

