-- ==== Sys2Proof/Machine/Flags.lean ====
section
/-! DEFINITION. The machine has no flags and no condition codes (`10_state.md` rule R28). What other machines keep in
flags, this one computes on register values: the set-on-less-than results (`43_set_lui.md` rule R155) and
the branch conditions (`44_branch.md` rules R161 to R166). They stand here. -/

namespace Sys2Proof.Machine

/-- `zeros(31) ‖ condition` (rule R155). -/
def boolWord (c : Bool) : Word := if c then 1#32 else 0#32

/-- `s(a) < s(b)` (rules R150, R152). -/
def signedLess (a b : Word) : Bool := decide (a.toInt < b.toInt)

/-- `u(a) < u(b)` (rules R151, R153). -/
def unsignedLess (a b : Word) : Bool := decide (a.toNat < b.toNat)

/-- bltz: `s(a) < 0` (rule R161). -/
def condLtz (a : Word) : Bool := decide (a.toInt < 0)

/-- bgez: `s(a) >= 0` (rule R162). -/
def condGez (a : Word) : Bool := decide (0 ≤ a.toInt)

/-- beq: all 32 bits equal (rule R163). -/
def condEq (a b : Word) : Bool := a == b

/-- bne: some bit differs (rule R164). -/
def condNe (a b : Word) : Bool := a != b

/-- blez: `s(a) <= 0` (rule R165). -/
def condLez (a : Word) : Bool := decide (a.toInt ≤ 0)

/-- bgtz: `s(a) > 0` (rule R166). -/
def condGtz (a : Word) : Bool := decide (0 < a.toInt)

end Sys2Proof.Machine
end

