-- ==== Sys2Proof/Machine/Branch.lean ====
section
/-! DEFINITION. The conditional branches (`44_branch.md`). A branch writes no register and no memory (rule R160). -/

namespace Sys2Proof.Machine

/-- What the six branches share (rule R160): `npc' <- target` when the condition holds, else `npc + 4`; the delay-slot
instruction runs next either way. Refused in a delay slot (rule R167, D11). -/
def State.branch (s : State) (condition : Bool) (imm : Imm16) : Result :=
  s.controlTransfer (.next (s.advanceTo (if condition then s.branchTarget imm else s.npc + 4#32) true))

/-- `bltz`: branch if `s(x[rs]) < 0` (rule R161). -/
def execBltz (rs : Reg) (imm : Imm16) (s : State) : Result := s.branch (condLtz (s.x rs)) imm

/-- `bgez`: branch if `s(x[rs]) >= 0` (rule R162). -/
def execBgez (rs : Reg) (imm : Imm16) (s : State) : Result := s.branch (condGez (s.x rs)) imm

/-- `beq`: branch if `x[rs] = x[rt]` (rule R163). -/
def execBeq (rs rt : Reg) (imm : Imm16) (s : State) : Result :=
  s.branch (condEq (s.x rs) (s.x rt)) imm

/-- `bne`: branch if `x[rs] != x[rt]` (rule R164). -/
def execBne (rs rt : Reg) (imm : Imm16) (s : State) : Result :=
  s.branch (condNe (s.x rs) (s.x rt)) imm

/-- `blez`: branch if `s(x[rs]) <= 0` (rule R165). -/
def execBlez (rs : Reg) (imm : Imm16) (s : State) : Result := s.branch (condLez (s.x rs)) imm

/-- `bgtz`: branch if `s(x[rs]) > 0` (rule R166). -/
def execBgtz (rs : Reg) (imm : Imm16) (s : State) : Result := s.branch (condGtz (s.x rs)) imm


end Sys2Proof.Machine
end

