-- ==== Sys2Proof/Machine/Jump.lean ====
section
/-! DEFINITION. The jumps (`45_jump.md`): unconditional, with one delay slot (rule R180); refused in a delay slot
(rule R186, D11). -/

namespace Sys2Proof.Machine

/-- What jr and jalr share: a target in a register, which must be a multiple of 4; if it is not, the model faults at
the jump and nothing changes (rules R26, R186, D9; log 7). `linked` is the state with the link written. -/
def State.jumpRegister (s : State) (target : Word) (linked : State) : Result :=
  s.controlTransfer
    (if instrAligned target then .next (linked.advanceTo target true)
     else .fault (.misalignedInstructionAddress target))

/-- `jr`: `npc' <- x[rs]` (rule R181). -/
def execJr (rs : Reg) (s : State) : Result := s.jumpRegister (s.x rs) s

/-- `jalr`: `t = x[rs]; x[rd] <- pc + 8; npc' <- t`; with `rd = rs` the target is the old value (rule R182, D15;
log 22). -/
def execJalr (rs rd : Reg) (s : State) : Result := s.jumpRegister (s.x rs) (s.writeBack rd s.linkValue)

/-- `j`: `npc' <- npc[31:28] ‖ instr_index ‖ 00` (rule R183). -/
def execJ (index : Index26) (s : State) : Result :=
  s.controlTransfer (.next (s.advanceTo (s.jumpTarget index) true))

/-- `jal`: `x[31] <- pc + 8`, then as `j` (rule R184). -/
def execJal (index : Index26) (s : State) : Result :=
  s.controlTransfer (.next ((s.writeBack 31#5 s.linkValue).advanceTo (s.jumpTarget index) true))


end Sys2Proof.Machine
end

