-- ==== Sys2Proof/Machine/LoadStore.lean ====
section
/-! DEFINITION. Loads and stores (`46_load_store.md`): one addressing mode (rule R190), alignment and window checked
before anything changes (rules R199, R215). Each also performs the sequential update of rule R25. -/

namespace Sys2Proof.Machine

/-- `lb`: `x[rt]` takes the byte at `addr`, sign-extended (rule R191). -/
def execLb (rs rt : Reg) (imm : Imm16) (s : State) : Result :=
  s.load rt (s.effectiveAddress rs imm) 1 (fun v => v.signExtend 32)

/-- `lh`: `x[rt]` takes the halfword at `addr`, sign-extended; `addr` a multiple of 2 (rule R192, C3). -/
def execLh (rs rt : Reg) (imm : Imm16) (s : State) : Result :=
  s.load rt (s.effectiveAddress rs imm) 2 (fun v => v.signExtend 32)

/-- `lw`: `x[rt]` takes the word at `addr`, a multiple of 4 (rule R193). -/
def execLw (rs rt : Reg) (imm : Imm16) (s : State) : Result :=
  s.load rt (s.effectiveAddress rs imm) 4 (fun v => v)

/-- `lbu`: `x[rt]` takes the byte at `addr`, zero-extended (rule R194). -/
def execLbu (rs rt : Reg) (imm : Imm16) (s : State) : Result :=
  s.load rt (s.effectiveAddress rs imm) 1 (fun v => v.setWidth 32)

/-- `lhu`: `x[rt]` takes the halfword at `addr`, zero-extended; `addr` a multiple of 2 (rule R195, C3). -/
def execLhu (rs rt : Reg) (imm : Imm16) (s : State) : Result :=
  s.load rt (s.effectiveAddress rs imm) 2 (fun v => v.setWidth 32)

/-- `sb`: the byte at `addr` becomes `x[rt][7:0]` (rule R196, C2). -/
def execSb (rs rt : Reg) (imm : Imm16) (s : State) : Result :=
  s.store (s.effectiveAddress rs imm) 1 ((s.x rt).extractLsb' 0 8)

/-- `sh`: the halfword at `addr`, a multiple of 2, becomes `x[rt][15:0]` (rule R197, C2). -/
def execSh (rs rt : Reg) (imm : Imm16) (s : State) : Result :=
  s.store (s.effectiveAddress rs imm) 2 ((s.x rt).extractLsb' 0 16)

/-- `sw`: the word at `addr`, a multiple of 4, becomes `x[rt]` (rule R198). -/
def execSw (rs rt : Reg) (imm : Imm16) (s : State) : Result :=
  s.store (s.effectiveAddress rs imm) 4 (s.x rt)


end Sys2Proof.Machine
end

