-- ==== Sys2Proof/Machine/Logic.lean ====
section
/-! DEFINITION. The logic and shift instructions (`41_logic_shift.md`). Each also performs the sequential update of
rule R25. -/

namespace Sys2Proof.Machine

/-- `and`: `x[rd] <- x[rs] AND x[rt]` (rule R110). -/
def execAnd (rs rt rd : Reg) (s : State) : Result :=
  .next (s.writeBack rd (s.x rs &&& s.x rt)).advance

/-- `or`: `x[rd] <- x[rs] OR x[rt]` (rule R111). -/
def execOr (rs rt rd : Reg) (s : State) : Result :=
  .next (s.writeBack rd (s.x rs ||| s.x rt)).advance

/-- `xor`: `x[rd] <- x[rs] XOR x[rt]` (rule R112). -/
def execXor (rs rt rd : Reg) (s : State) : Result :=
  .next (s.writeBack rd (s.x rs ^^^ s.x rt)).advance

/-- `nor`: `x[rd] <- NOT (x[rs] OR x[rt])` (rule R113). -/
def execNor (rs rt rd : Reg) (s : State) : Result :=
  .next (s.writeBack rd (~~~(s.x rs ||| s.x rt))).advance

/-- `sll`: `x[rt]` shifted left by `shamt`, zeros in (rule R114). -/
def execSll (rt rd : Reg) (shamt : Shamt) (s : State) : Result :=
  .next (s.writeBack rd (s.x rt <<< shamt.toNat)).advance

/-- `srl`: `x[rt]` shifted right by `shamt`, zeros in (rule R115). -/
def execSrl (rt rd : Reg) (shamt : Shamt) (s : State) : Result :=
  .next (s.writeBack rd (s.x rt >>> shamt.toNat)).advance

/-- `sra`: `x[rt]` shifted right by `shamt`, copies of the sign bit in (rule R116). -/
def execSra (rt rd : Reg) (shamt : Shamt) (s : State) : Result :=
  .next (s.writeBack rd ((s.x rt).sshiftRight shamt.toNat)).advance

/-- `sllv`: as `sll` by `x[rs][4:0]` (rules R117, R120). -/
def execSllv (rs rt rd : Reg) (s : State) : Result :=
  .next (s.writeBack rd (s.x rt <<< (s.shiftAmount rs).toNat)).advance

/-- `srlv`: as `srl` by `x[rs][4:0]` (rules R118, R120). -/
def execSrlv (rs rt rd : Reg) (s : State) : Result :=
  .next (s.writeBack rd (s.x rt >>> (s.shiftAmount rs).toNat)).advance

/-- `srav`: as `sra` by `x[rs][4:0]` (rules R119, R120). -/
def execSrav (rs rt rd : Reg) (s : State) : Result :=
  .next (s.writeBack rd ((s.x rt).sshiftRight (s.shiftAmount rs).toNat)).advance

/-- `andi`: `x[rt] <- x[rs] AND zext_32(imm16)` (rule R121). -/
def execAndi (rs rt : Reg) (imm : Imm16) (s : State) : Result :=
  .next (s.writeBack rt (s.x rs &&& zext16 imm)).advance

/-- `ori`: `x[rt] <- x[rs] OR zext_32(imm16)` (rule R122). -/
def execOri (rs rt : Reg) (imm : Imm16) (s : State) : Result :=
  .next (s.writeBack rt (s.x rs ||| zext16 imm)).advance

/-- `xori`: `x[rt] <- x[rs] XOR zext_32(imm16)` (rule R123). -/
def execXori (rs rt : Reg) (imm : Imm16) (s : State) : Result :=
  .next (s.writeBack rt (s.x rs ^^^ zext16 imm)).advance


end Sys2Proof.Machine
end

