-- ==== Sys2Proof/Machine/MulDiv.lean ====
section
/-! DEFINITION. Multiply, divide and the moves of `HI` and `LO` (`42_muldiv.md`). To a program each completes in its own
step (rule R130); the cycles are in `Machine/Pipeline.lean`. Each also performs the sequential update of
rule R25. -/

namespace Sys2Proof.Machine

/-! ### Results of the unit: exact integers, narrowed at the end (rules R131 to R134) -/

/-- Bits 63..32 and 31..0 of a product, as (`HI`, `LO`). -/
def splitProduct (prod : BitVec 64) : Word × Word := (prod.extractLsb' 32 32, prod.extractLsb' 0 32)

/-- `s(a) * s(b)` as (`HI`, `LO`) (rule R131). -/
def multResult (a b : Word) : Word × Word := splitProduct (BitVec.ofInt 64 (a.toInt * b.toInt))

/-- `u(a) * u(b)` as (`HI`, `LO`) (rule R132). -/
def multuResult (a b : Word) : Word × Word := splitProduct (BitVec.ofNat 64 (a.toNat * b.toNat))

/-- The operands of `div` for which the document gives no result (rules R133, R140): a divisor of zero, and
`0x80000000` by `0xFFFFFFFF`. -/
def divOpen (a b : Word) : Bool := b == 0#32 || (a == 0x80000000#32 && b == 0xFFFFFFFF#32)

/-- `s(a) % s(b)` and `s(a) ÷ s(b)` as (`HI`, `LO`): the quotient rounded toward zero, the remainder with the sign
of the dividend (rule R133; D12, PRESUMED, unsafe, log 11); open operands give `DIV_CORNER` (rule R140). -/
def divResult (a b : Word) : Word × Word :=
  if divOpen a b then Config.divCorner .div a b
  else (BitVec.ofInt 32 (a.toInt.tmod b.toInt), BitVec.ofInt 32 (a.toInt.tdiv b.toInt))

/-- `u(a) % u(b)` and `u(a) ÷ u(b)` as (`HI`, `LO`) (rule R134); a divisor of zero gives `DIV_CORNER` (rule R140). -/
def divuResult (a b : Word) : Word × Word :=
  if b = 0#32 then Config.divCorner .divu a b
  else (BitVec.ofNat 32 (a.toNat % b.toNat), BitVec.ofNat 32 (a.toNat / b.toNat))

/-- `HI` and `LO` written together from a pair (rule R130). -/
def State.setHiLo (s : State) (p : Word × Word) : State := (s.setHi p.1).setLo p.2

/-! ### The instructions -/

/-- `mult`: signed product to `HI`, `LO` (rule R131). -/
def execMult (rs rt : Reg) (s : State) : Result :=
  .next (s.setHiLo (multResult (s.x rs) (s.x rt))).advance

/-- `multu`: unsigned product to `HI`, `LO` (rule R132). -/
def execMultu (rs rt : Reg) (s : State) : Result :=
  .next (s.setHiLo (multuResult (s.x rs) (s.x rt))).advance

/-- `div`: signed remainder to `HI`, quotient to `LO`; no exception (rules R133, R140, R212). -/
def execDiv (rs rt : Reg) (s : State) : Result :=
  .next (s.setHiLo (divResult (s.x rs) (s.x rt))).advance

/-- `divu`: unsigned remainder to `HI`, quotient to `LO`; no exception (rules R134, R140, R212). -/
def execDivu (rs rt : Reg) (s : State) : Result :=
  .next (s.setHiLo (divuResult (s.x rs) (s.x rt))).advance

/-- `mfhi`: `x[rd] <- HI` (rule R135). -/
def execMfhi (rd : Reg) (s : State) : Result := .next (s.writeBack rd s.hi).advance

/-- `mthi`: `HI <- x[rs]`; the other register is unchanged (rule R136). -/
def execMthi (rs : Reg) (s : State) : Result := .next (s.setHi (s.x rs)).advance

/-- `mflo`: `x[rd] <- LO` (rule R137). -/
def execMflo (rd : Reg) (s : State) : Result := .next (s.writeBack rd s.lo).advance

/-- `mtlo`: `LO <- x[rs]`; the other register is unchanged (rule R138). -/
def execMtlo (rs : Reg) (s : State) : Result := .next (s.setLo (s.x rs)).advance


end Sys2Proof.Machine
end

