-- ==== Sys2Proof/Machine/SetLui.lean ====
section
/-! DEFINITION. Set on less than and load upper immediate (`43_set_lui.md`). Each also performs the sequential update
of rule R25. -/

namespace Sys2Proof.Machine

/-- `slt`: 1 if `s(x[rs]) < s(x[rt])`, else 0 (rule R150). -/
def execSlt (rs rt rd : Reg) (s : State) : Result :=
  .next (s.writeBack rd (boolWord (signedLess (s.x rs) (s.x rt)))).advance

/-- `sltu`: 1 if `u(x[rs]) < u(x[rt])`, else 0 (rule R151). -/
def execSltu (rs rt rd : Reg) (s : State) : Result :=
  .next (s.writeBack rd (boolWord (unsignedLess (s.x rs) (s.x rt)))).advance

/-- `slti`: 1 if `s(x[rs]) < s(sext_32(imm16))`, else 0 (rule R152). -/
def execSlti (rs rt : Reg) (imm : Imm16) (s : State) : Result :=
  .next (s.writeBack rt (boolWord (signedLess (s.x rs) (sext16 imm)))).advance

/-- `sltiu`: the immediate is sign-extended first, then compared unsigned (rule R153). -/
def execSltiu (rs rt : Reg) (imm : Imm16) (s : State) : Result :=
  .next (s.writeBack rt (boolWord (unsignedLess (s.x rs) (sext16 imm)))).advance

/-- `lui`: `x[rt] <- imm16 ‖ zeros(16)` (rule R154). -/
def execLui (rt : Reg) (imm : Imm16) (s : State) : Result :=
  .next (s.writeBack rt (upper16 imm)).advance


end Sys2Proof.Machine
end

