-- ==== Sys2Proof/Machine/Step.lean ====
section
/-! DEFINITION. One architectural step (`10_state.md` rule R25) with the model's abnormal outcomes in the order of
`60_exceptions.md` rule R215, and where a word is put so that `step` runs it. -/

namespace Sys2Proof.Machine

/-- A step at a word that decodes to nothing: refused, or under `ILLEGAL_AS_NOP` a no-operation that only advances
`pc` (rule R81, D10; log 8). -/
def stepUnrecognised (w : Word) (s : State) : Host.Outcome State Fault Refusal :=
  if s.params.illegalAsNop then .next s.advance else .refused (.unrecognisedInstruction w)

/-- One step: an active `RESET` overrides everything (rules R215, R240); else fetch, decode, execute (rule R25). -/
def step (s : State) : Host.Outcome State Fault Refusal :=
  if s.resetPin then .next s.applyReset
  else
    match fetchWord s.params s.rom s.pc with
    | .stop f => .fault f
    | .word w =>
      match decodeWord w with
      | .instr i => exec i s
      | .rejected _ => stepUnrecognised w s

/-- `s` with the instruction of a table row's bits `w` stored in the ROM at `pc`, where the next step fetches it, and
`RESET` inactive, so that the step fetches at all. It stands for loading a program from outside (log 4). -/
def State.withFetchWord (s : State) (nbits w : Nat) : State :=
  { s with rom := romPutBytes s.rom s.pc.toNat (bytesOfWord (tableWord nbits w)), resetPin := false }

end Sys2Proof.Machine
end

