-- ==== Sys2Proof/Machine/Modules.lean ====
section
/-! DEFINITION. The combinational modules of the pipeline (`70_reset_and_hazards.md` rules R307 to R314): IFU_NPC, EXT, COMP,
ALU, MULT's results, DM, and the external RAM's lanes. Selector codes that no instruction has give free
values (U12, log 20). -/

namespace Sys2Proof.Machine

/-- IFU_NPC (rule R307); `pc` is the address being fetched, the delay slot's while a transfer is in D. -/
def npcModule (npcSel : BitVec 2) (pc : Word) (branchComp : Bool) (offset : Imm16) (index : Index26)
    (instrRegister : Word) : Word :=
  match npcSel with
  | 0b00#2 => pc + 4#32
  | 0b01#2 => if branchComp then pc + branchOffset offset else pc + 4#32
  | 0b10#2 => pc.extractLsb' 28 4 ++ index ++ 0#2
  | _ => instrRegister

/-- EXT (rules R74, R311). -/
def extModule (extSel : BitVec 2) (imm : Imm16) : Word :=
  match extSel with
  | 0b00#2 => sext16 imm
  | 0b01#2 => zext16 imm
  | 0b10#2 => upper16 imm
  | _ => Config.openExt imm

/-- COMP (rules R168, R310). -/
def compModule (compSel : BitVec 3) (a b : Word) : Bool :=
  match compSel with
  | 0b000#3 => condLtz a
  | 0b001#3 => condGez a
  | 0b100#3 => condEq a b
  | 0b101#3 => condNe a b
  | 0b110#3 => condLez a
  | 0b111#3 => condGtz a
  | c => Config.openComp c a b

/-- The ALU's shift amount: `A[4:0]` or `shamt` (rule R312). How the hardware chooses is not documented (N14); the
model carries `funct[2]` (rule R124, "presumably"; DEDUCED, log 17). -/
def aluAmount (shiftByReg : Bool) (a : Word) (shamt : Shamt) : Nat :=
  (if shiftByReg then a.extractLsb' 0 5 else shamt).toNat

/-- ALU (rule R312). -/
def aluModule (opSel funcSel : BitVec 2) (shiftByReg : Bool) (a b : Word) (shamt : Shamt) : Word :=
  match opSel, funcSel with
  | 0b00#2, 0b00#2 => a + b
  | 0b00#2, 0b01#2 => a - b
  | 0b01#2, 0b00#2 => a &&& b
  | 0b01#2, 0b01#2 => a ||| b
  | 0b01#2, 0b10#2 => a ^^^ b
  | 0b01#2, 0b11#2 => ~~~(a ||| b)
  | 0b10#2, 0b00#2 => b <<< aluAmount shiftByReg a shamt
  | 0b10#2, 0b10#2 => b >>> aluAmount shiftByReg a shamt
  | 0b10#2, 0b11#2 => b.sshiftRight (aluAmount shiftByReg a shamt)
  | 0b11#2, 0b00#2 => boolWord (signedLess a b)
  | 0b11#2, 0b01#2 => boolWord (unsignedLess a b)
  | op, fn => Config.openALU op fn a b

/-- `Start` = `ISMULTDIV & MULTSel[2]` (rules R139, R290). -/
def multStart (isMultDiv : Bool) (multSel : BitVec 3) : Bool := isMultDiv && multSel.getLsbD 2

/-- The result that a started operation leaves in (`HI`, `LO`), by `MULTSel[1:0]` (rule R139). -/
def multCompute (multSel : BitVec 3) (a b : Word) : Word × Word :=
  match multSel.extractLsb' 0 2 with
  | 0b00#2 => multResult a b
  | 0b01#2 => multuResult a b
  | 0b10#2 => divResult a b
  | _ => divuResult a b

/-- The busy time of a started operation: 5 cycles for a multiplication, 10 for a division (rules R7, R291). -/
def multLatency (multSel : BitVec 3) : Nat := if multSel.getLsbD 1 then 10 else 5

/-- MULT's output `HILO` (rules R139, R293). -/
def hiloModule (multSel : BitVec 3) (hi lo : Word) : Word :=
  match multSel with
  | 0b000#3 => hi
  | 0b010#3 => lo
  | c => Config.openHILO c hi lo

/-- DM's `byteen` (rules R49, R314); a cell marked `/` is free. -/
def byteenModule (we : Bool) (dmSel : BitVec 3) (a : Word) : BitVec 4 :=
  if we then
    match dmSel, a.extractLsb' 0 2 with
    | 0b000#3, 0b00#2 => 0b0001#4
    | 0b000#3, 0b01#2 => 0b0010#4
    | 0b000#3, 0b10#2 => 0b0100#4
    | 0b000#3, 0b11#2 => 0b1000#4
    | 0b001#3, 0b00#2 => 0b0011#4
    | 0b001#3, 0b10#2 => 0b1100#4
    | 0b011#3, 0b00#2 => 0b1111#4
    | c, l => Config.openByteen c l
  else 0b0000#4

/-- DM's `wdata`: `D` moved to the enabled lanes (rules R49, R314, C7); the others are free (U8). -/
def wdataModule (we : Bool) (dmSel : BitVec 3) (a d rdata : Word) : Word :=
  ((d <<< (8 * (a.toNat % 4))) &&& laneMask (byteenModule we dmSel a)) |||
    (Config.openWdata dmSel a d rdata &&& ~~~laneMask (byteenModule we dmSel a))

/-- DM's `Q`: the lane of `rdata` and its extension (rules R50, R314, C3). -/
def qModule (dmSel : BitVec 3) (a rdata : Word) : Word :=
  match dmSel with
  | 0b000#3 => (rdata.extractLsb' (8 * (a.toNat % 4)) 8).signExtend 32
  | 0b001#3 => (rdata.extractLsb' (16 * (a.toNat / 2 % 2)) 16).signExtend 32
  | 0b011#3 => rdata
  | 0b100#3 => (rdata.extractLsb' (8 * (a.toNat % 4)) 8).setWidth 32
  | 0b101#3 => (rdata.extractLsb' (16 * (a.toNat / 2 % 2)) 16).setWidth 32
  | c => Config.openQ c (a.extractLsb' 0 2) rdata

/-- The external RAM on a write: the lanes that `byteen` enables of the aligned word (rules R45, R49, D18). -/
def ramWriteLanes (m : Memory) (addr : Word) (be : BitVec 4) (wdata : Word) : Memory :=
  let a := addr.toNat - addr.toNat % 4
  let put (i : Nat) (m : Memory) : Memory :=
    if be.getLsbD i then ramPut m (a + i) (wdata.extractLsb' (8 * i) 8) else m
  put 3 (put 2 (put 1 (put 0 m)))

/-- The external RAM on a read: the aligned word (rule R50, D18); outside the window it is not known (D7). -/
def rdataModule (p : Params) (m : Memory) (addr : Word) : Word :=
  if Params.dataInside p addr 1 then ramWord m addr else Config.openRdata addr

/-- The number of bytes a legal access moves, by `DMSel[1:0]` (rules R50, R52). -/
def accessBytes (dmSel : BitVec 3) : Nat :=
  match dmSel.extractLsb' 0 2 with
  | 0b00#2 => 1
  | 0b01#2 => 2
  | _ => 4

end Sys2Proof.Machine
end

