-- ==== Sys2Proof/Machine/Control.lean ====
section
/-! DEFINITION. The control modules of the pipeline (`70_reset_and_hazards.md` rules R270 to R282, R315 to R317): the 13
classes, CTRL_Decoder, `Tuse` and `Tnew`, the stall and forward table, CTRL_Stall and CTRL_Forward. -/

namespace Sys2Proof.Machine

/-- The 13 classes (rule R270). -/
inductive Cls where
  | alreg | alimm | mlutdiv | mlto | mlfrom | extlui | branche | branchz | jumpr | jumpw | jumprw | load | store
  deriving DecidableEq, Repr

/-- The class of an instruction; j alone has none (rule R270). -/
def instrClass : Instr → Option Cls
  | .add _ _ _ => some .alreg
  | .addu _ _ _ => some .alreg
  | .sub _ _ _ => some .alreg
  | .subu _ _ _ => some .alreg
  | .addi _ _ _ => some .alimm
  | .addiu _ _ _ => some .alimm
  | .and _ _ _ => some .alreg
  | .or _ _ _ => some .alreg
  | .xor _ _ _ => some .alreg
  | .nor _ _ _ => some .alreg
  | .sll _ _ _ => some .alreg
  | .srl _ _ _ => some .alreg
  | .sra _ _ _ => some .alreg
  | .sllv _ _ _ => some .alreg
  | .srlv _ _ _ => some .alreg
  | .srav _ _ _ => some .alreg
  | .andi _ _ _ => some .alimm
  | .ori _ _ _ => some .alimm
  | .xori _ _ _ => some .alimm
  | .mult _ _ => some .mlutdiv
  | .multu _ _ => some .mlutdiv
  | .div _ _ => some .mlutdiv
  | .divu _ _ => some .mlutdiv
  | .mfhi _ => some .mlfrom
  | .mthi _ => some .mlto
  | .mflo _ => some .mlfrom
  | .mtlo _ => some .mlto
  | .slt _ _ _ => some .alreg
  | .sltu _ _ _ => some .alreg
  | .slti _ _ _ => some .alimm
  | .sltiu _ _ _ => some .alimm
  | .lui _ _ => some .extlui
  | .bltz _ _ => some .branchz
  | .bgez _ _ => some .branchz
  | .beq _ _ _ => some .branche
  | .bne _ _ _ => some .branche
  | .blez _ _ => some .branchz
  | .bgtz _ _ => some .branchz
  | .jr _ => some .jumpr
  | .jalr _ _ => some .jumprw
  | .j _ => none
  | .jal _ => some .jumpw
  | .lb _ _ _ => some .load
  | .lh _ _ _ => some .load
  | .lw _ _ _ => some .load
  | .lbu _ _ _ => some .load
  | .lhu _ _ _ => some .load
  | .sb _ _ _ => some .store
  | .sh _ _ _ => some .store
  | .sw _ _ _ => some .store

/-! ### CTRL_Decoder (rule R315) -/

/-- The decoder's outputs (rule R315), and the bit that tells sllv, srlv, srav from sll, srl, sra (log 17). -/
structure Controls where
  compSel : BitVec 3
  extSel : BitVec 2
  npcSel : BitVec 2
  opSel : BitVec 2
  funcSel : BitVec 2
  multSel : BitVec 3
  isMultDiv : Bool
  dmSel : BitVec 3
  dmWE : Bool
  grfWE : Bool
  a3Sel : BitVec 2
  wdSel : BitVec 2
  aluBSel : Bool
  opESel : Bool
  tuseRs : BitVec 2
  tuseRt : BitVec 2
  shiftByReg : Bool
  deriving DecidableEq, Repr

/-- `NPCSel` (rules R305, R315). -/
def npcSelOf : Option Cls → BitVec 2
  | some .branche | some .branchz => 0b01#2
  | some .jumpw | none => 0b10#2
  | some .jumpr | some .jumprw => 0b11#2
  | _ => 0b00#2

/-- `GRFWE` (rules R22, R309). -/
def grfWEOf : Option Cls → Bool
  | some .alreg | some .alimm | some .extlui | some .mlfrom | some .load | some .jumpw | some .jumprw => true
  | _ => false

/-- `GRF_A3_D_Sel` (rules R22, R309). -/
def a3SelOf : Option Cls → BitVec 2
  | some .alimm | some .extlui | some .load => 0b10#2
  | some .jumpw => 0b11#2
  | _ => 0b00#2

/-- `GRF_WD_W_Sel` (rules R271, R309). -/
def wdSelOf : Option Cls → BitVec 2
  | some .load => 0b01#2
  | some .extlui => 0b10#2
  | some .jumpw | some .jumprw => 0b11#2
  | _ => 0b00#2

/-- `ALU_B_E_Sel` (rule R312). -/
def aluBSelOf : Option Cls → Bool
  | some .alimm | some .load | some .store => true
  | _ => false

/-- `OP_E_Sel` (rule R313). -/
def opESelOf : Option Cls → Bool
  | some .mlfrom => true
  | _ => false

/-- `ISMULTDIV` (rules R139, R313). -/
def isMultDivOf : Option Cls → Bool
  | some .mlutdiv | some .mlto | some .mlfrom => true
  | _ => false

/-- `DMWE` (rule R314). -/
def dmWEOf : Option Cls → Bool
  | some .store => true
  | _ => false

/-- `Tuse_rs` (rule R271); 3 is "not read". -/
def tuseRsOf : Option Cls → BitVec 2
  | some .alreg | some .alimm | some .mlutdiv | some .mlto | some .load | some .store => 1#2
  | some .branche | some .branchz | some .jumpr | some .jumprw => 0#2
  | _ => 3#2

/-- `Tuse_rt` (rule R271); 3 is "not read". -/
def tuseRtOf : Option Cls → BitVec 2
  | some .alreg | some .mlutdiv => 1#2
  | some .branche => 0#2
  | some .store => 2#2
  | _ => 3#2

/-- `EXTSel` (rules R74, R311). -/
def extSelOf : Instr → BitVec 2
  | .add _ _ _ => 0b00#2
  | .addu _ _ _ => 0b00#2
  | .sub _ _ _ => 0b00#2
  | .subu _ _ _ => 0b00#2
  | .addi _ _ _ => 0b00#2
  | .addiu _ _ _ => 0b00#2
  | .and _ _ _ => 0b00#2
  | .or _ _ _ => 0b00#2
  | .xor _ _ _ => 0b00#2
  | .nor _ _ _ => 0b00#2
  | .sll _ _ _ => 0b00#2
  | .srl _ _ _ => 0b00#2
  | .sra _ _ _ => 0b00#2
  | .sllv _ _ _ => 0b00#2
  | .srlv _ _ _ => 0b00#2
  | .srav _ _ _ => 0b00#2
  | .andi _ _ _ => 0b01#2
  | .ori _ _ _ => 0b01#2
  | .xori _ _ _ => 0b01#2
  | .mult _ _ => 0b00#2
  | .multu _ _ => 0b00#2
  | .div _ _ => 0b00#2
  | .divu _ _ => 0b00#2
  | .mfhi _ => 0b00#2
  | .mthi _ => 0b00#2
  | .mflo _ => 0b00#2
  | .mtlo _ => 0b00#2
  | .slt _ _ _ => 0b00#2
  | .sltu _ _ _ => 0b00#2
  | .slti _ _ _ => 0b00#2
  | .sltiu _ _ _ => 0b00#2
  | .lui _ _ => 0b10#2
  | .bltz _ _ => 0b00#2
  | .bgez _ _ => 0b00#2
  | .beq _ _ _ => 0b00#2
  | .bne _ _ _ => 0b00#2
  | .blez _ _ => 0b00#2
  | .bgtz _ _ => 0b00#2
  | .jr _ => 0b00#2
  | .jalr _ _ => 0b00#2
  | .j _ => 0b00#2
  | .jal _ => 0b00#2
  | .lb _ _ _ => 0b00#2
  | .lh _ _ _ => 0b00#2
  | .lw _ _ _ => 0b00#2
  | .lbu _ _ _ => 0b00#2
  | .lhu _ _ _ => 0b00#2
  | .sb _ _ _ => 0b00#2
  | .sh _ _ _ => 0b00#2
  | .sw _ _ _ => 0b00#2

/-- `CompSel`: `opcode[2:0]`, or `00` and `rt[0]` for bltz and bgez (rule R168); free for every other instruction. -/
def compSelOf (op fn : BitVec 6) (rt : Reg) : Instr → BitVec 3
  | .add _ _ _ => Config.openCompSel op fn rt
  | .addu _ _ _ => Config.openCompSel op fn rt
  | .sub _ _ _ => Config.openCompSel op fn rt
  | .subu _ _ _ => Config.openCompSel op fn rt
  | .addi _ _ _ => Config.openCompSel op fn rt
  | .addiu _ _ _ => Config.openCompSel op fn rt
  | .and _ _ _ => Config.openCompSel op fn rt
  | .or _ _ _ => Config.openCompSel op fn rt
  | .xor _ _ _ => Config.openCompSel op fn rt
  | .nor _ _ _ => Config.openCompSel op fn rt
  | .sll _ _ _ => Config.openCompSel op fn rt
  | .srl _ _ _ => Config.openCompSel op fn rt
  | .sra _ _ _ => Config.openCompSel op fn rt
  | .sllv _ _ _ => Config.openCompSel op fn rt
  | .srlv _ _ _ => Config.openCompSel op fn rt
  | .srav _ _ _ => Config.openCompSel op fn rt
  | .andi _ _ _ => Config.openCompSel op fn rt
  | .ori _ _ _ => Config.openCompSel op fn rt
  | .xori _ _ _ => Config.openCompSel op fn rt
  | .mult _ _ => Config.openCompSel op fn rt
  | .multu _ _ => Config.openCompSel op fn rt
  | .div _ _ => Config.openCompSel op fn rt
  | .divu _ _ => Config.openCompSel op fn rt
  | .mfhi _ => Config.openCompSel op fn rt
  | .mthi _ => Config.openCompSel op fn rt
  | .mflo _ => Config.openCompSel op fn rt
  | .mtlo _ => Config.openCompSel op fn rt
  | .slt _ _ _ => Config.openCompSel op fn rt
  | .sltu _ _ _ => Config.openCompSel op fn rt
  | .slti _ _ _ => Config.openCompSel op fn rt
  | .sltiu _ _ _ => Config.openCompSel op fn rt
  | .lui _ _ => Config.openCompSel op fn rt
  | .bltz _ _ => 0b00#2 ++ rt.extractLsb' 0 1
  | .bgez _ _ => 0b00#2 ++ rt.extractLsb' 0 1
  | .beq _ _ _ => op.extractLsb' 0 3
  | .bne _ _ _ => op.extractLsb' 0 3
  | .blez _ _ => op.extractLsb' 0 3
  | .bgtz _ _ => op.extractLsb' 0 3
  | .jr _ => Config.openCompSel op fn rt
  | .jalr _ _ => Config.openCompSel op fn rt
  | .j _ => Config.openCompSel op fn rt
  | .jal _ => Config.openCompSel op fn rt
  | .lb _ _ _ => Config.openCompSel op fn rt
  | .lh _ _ _ => Config.openCompSel op fn rt
  | .lw _ _ _ => Config.openCompSel op fn rt
  | .lbu _ _ _ => Config.openCompSel op fn rt
  | .lhu _ _ _ => Config.openCompSel op fn rt
  | .sb _ _ _ => Config.openCompSel op fn rt
  | .sh _ _ _ => Config.openCompSel op fn rt
  | .sw _ _ _ => Config.openCompSel op fn rt

/-- `OPSel` (rule R312); free where the ALU result is not used (U12). -/
def opSelOf (op fn : BitVec 6) (rt : Reg) : Instr → BitVec 2
  | .add _ _ _ => 0b00#2
  | .addu _ _ _ => 0b00#2
  | .sub _ _ _ => 0b00#2
  | .subu _ _ _ => 0b00#2
  | .addi _ _ _ => 0b00#2
  | .addiu _ _ _ => 0b00#2
  | .and _ _ _ => 0b01#2
  | .or _ _ _ => 0b01#2
  | .xor _ _ _ => 0b01#2
  | .nor _ _ _ => 0b01#2
  | .sll _ _ _ => 0b10#2
  | .srl _ _ _ => 0b10#2
  | .sra _ _ _ => 0b10#2
  | .sllv _ _ _ => 0b10#2
  | .srlv _ _ _ => 0b10#2
  | .srav _ _ _ => 0b10#2
  | .andi _ _ _ => 0b01#2
  | .ori _ _ _ => 0b01#2
  | .xori _ _ _ => 0b01#2
  | .mult _ _ => Config.openOPSel op fn rt
  | .multu _ _ => Config.openOPSel op fn rt
  | .div _ _ => Config.openOPSel op fn rt
  | .divu _ _ => Config.openOPSel op fn rt
  | .mfhi _ => Config.openOPSel op fn rt
  | .mthi _ => Config.openOPSel op fn rt
  | .mflo _ => Config.openOPSel op fn rt
  | .mtlo _ => Config.openOPSel op fn rt
  | .slt _ _ _ => 0b11#2
  | .sltu _ _ _ => 0b11#2
  | .slti _ _ _ => 0b11#2
  | .sltiu _ _ _ => 0b11#2
  | .lui _ _ => Config.openOPSel op fn rt
  | .bltz _ _ => Config.openOPSel op fn rt
  | .bgez _ _ => Config.openOPSel op fn rt
  | .beq _ _ _ => Config.openOPSel op fn rt
  | .bne _ _ _ => Config.openOPSel op fn rt
  | .blez _ _ => Config.openOPSel op fn rt
  | .bgtz _ _ => Config.openOPSel op fn rt
  | .jr _ => Config.openOPSel op fn rt
  | .jalr _ _ => Config.openOPSel op fn rt
  | .j _ => Config.openOPSel op fn rt
  | .jal _ => Config.openOPSel op fn rt
  | .lb _ _ _ => 0b00#2
  | .lh _ _ _ => 0b00#2
  | .lw _ _ _ => 0b00#2
  | .lbu _ _ _ => 0b00#2
  | .lhu _ _ _ => 0b00#2
  | .sb _ _ _ => 0b00#2
  | .sh _ _ _ => 0b00#2
  | .sw _ _ _ => 0b00#2

/-- `FuncSel` (rule R312): from CTRL, or `funct[1:0]` (R-type), or `opcode[1:0]` (I-type); free where the ALU result is not
used (U12). -/
def funcSelOf (op fn : BitVec 6) (rt : Reg) : Instr → BitVec 2
  | .add _ _ _ => 0b00#2
  | .addu _ _ _ => 0b00#2
  | .sub _ _ _ => 0b01#2
  | .subu _ _ _ => 0b01#2
  | .addi _ _ _ => 0b00#2
  | .addiu _ _ _ => 0b00#2
  | .and _ _ _ => fn.extractLsb' 0 2
  | .or _ _ _ => fn.extractLsb' 0 2
  | .xor _ _ _ => fn.extractLsb' 0 2
  | .nor _ _ _ => fn.extractLsb' 0 2
  | .sll _ _ _ => fn.extractLsb' 0 2
  | .srl _ _ _ => fn.extractLsb' 0 2
  | .sra _ _ _ => fn.extractLsb' 0 2
  | .sllv _ _ _ => fn.extractLsb' 0 2
  | .srlv _ _ _ => fn.extractLsb' 0 2
  | .srav _ _ _ => fn.extractLsb' 0 2
  | .andi _ _ _ => op.extractLsb' 0 2
  | .ori _ _ _ => op.extractLsb' 0 2
  | .xori _ _ _ => op.extractLsb' 0 2
  | .mult _ _ => Config.openFuncSel op fn rt
  | .multu _ _ => Config.openFuncSel op fn rt
  | .div _ _ => Config.openFuncSel op fn rt
  | .divu _ _ => Config.openFuncSel op fn rt
  | .mfhi _ => Config.openFuncSel op fn rt
  | .mthi _ => Config.openFuncSel op fn rt
  | .mflo _ => Config.openFuncSel op fn rt
  | .mtlo _ => Config.openFuncSel op fn rt
  | .slt _ _ _ => 0b00#2
  | .sltu _ _ _ => 0b01#2
  | .slti _ _ _ => 0b00#2
  | .sltiu _ _ _ => 0b01#2
  | .lui _ _ => Config.openFuncSel op fn rt
  | .bltz _ _ => Config.openFuncSel op fn rt
  | .bgez _ _ => Config.openFuncSel op fn rt
  | .beq _ _ _ => Config.openFuncSel op fn rt
  | .bne _ _ _ => Config.openFuncSel op fn rt
  | .blez _ _ => Config.openFuncSel op fn rt
  | .bgtz _ _ => Config.openFuncSel op fn rt
  | .jr _ => Config.openFuncSel op fn rt
  | .jalr _ _ => Config.openFuncSel op fn rt
  | .j _ => Config.openFuncSel op fn rt
  | .jal _ => Config.openFuncSel op fn rt
  | .lb _ _ _ => 0b00#2
  | .lh _ _ _ => 0b00#2
  | .lw _ _ _ => 0b00#2
  | .lbu _ _ _ => 0b00#2
  | .lhu _ _ _ => 0b00#2
  | .sb _ _ _ => 0b00#2
  | .sh _ _ _ => 0b00#2
  | .sw _ _ _ => 0b00#2

/-- The decoder's outputs for an instruction whose word has these three fields (rule R315). `DMSel` = `opcode[2:0]` and
`MULTSel` = the bits `funct[3]`, `funct[1:0]` are wired for every word. -/
def instrControls (op fn : BitVec 6) (rt : Reg) (i : Instr) : Controls :=
  let c := instrClass i
  { compSel := compSelOf op fn rt i, extSel := extSelOf i, npcSel := npcSelOf c, opSel := opSelOf op fn rt i,
    funcSel := funcSelOf op fn rt i, multSel := fn.extractLsb' 3 1 ++ fn.extractLsb' 0 2,
    isMultDiv := isMultDivOf c, dmSel := op.extractLsb' 0 3, dmWE := dmWEOf c, grfWE := grfWEOf c,
    a3Sel := a3SelOf c, wdSel := wdSelOf c, aluBSel := aluBSelOf c, opESel := opESelOf c,
    tuseRs := tuseRsOf c, tuseRt := tuseRtOf c, shiftByReg := fn.getLsbD 2 }

/-- The "others" row of every control table (rules R81, R315): what a word of no class takes, under `ILLEGAL_AS_NOP`. -/
def idleControls (op fn : BitVec 6) (rt : Reg) : Controls :=
  { compSel := Config.openCompSel op fn rt, extSel := 0b00#2, npcSel := 0b00#2, opSel := Config.openOPSel op fn rt,
    funcSel := Config.openFuncSel op fn rt, multSel := fn.extractLsb' 3 1 ++ fn.extractLsb' 0 2, isMultDiv := false,
    dmSel := op.extractLsb' 0 3, dmWE := false, grfWE := false, a3Sel := 0b00#2, wdSel := 0b00#2, aluBSel := false,
    opESel := false, tuseRs := (Config.openTuse op fn rt).1, tuseRt := (Config.openTuse op fn rt).2,
    shiftByReg := fn.getLsbD 2 }

/-- CTRL_Decoder: its only inputs are `opcode`, `funct` and `rt` (rules R73, R315). -/
def ctrlDecoder (op fn : BitVec 6) (rt : Reg) : Controls :=
  match decodeWord (op ++ 0#5 ++ rt ++ 0#10 ++ fn) with
  | .instr i => instrControls op fn rt i
  | .rejected _ => idleControls op fn rt

/-! ### Tnew (rule R271) -/

/-- A stage behind D that may hold a producer. -/
inductive Stage where
  | E | M | W
  deriving DecidableEq, Repr

/-- `Tnew_X` of a producer, by its `GRF_WD_W_Sel` (rules R271, R274). -/
def tnew : Stage → BitVec 2 → Nat
  | .E, 0b00#2 => 1
  | .E, 0b01#2 => 2
  | .M, 0b01#2 => 1
  | _, _ => 0

/-! ### The stall and forward table (rules R273, R274) -/

/-- The entries of the table (rules R274, R276, R277). -/
inductive Entry where
  | S1 | S2 | S3 | S4 | F0 | F1 | F21 | F23 | F24 | F32 | F43 | F44 | F51 | F62
  deriving DecidableEq, Repr

/-- The table (rule R274): rows by `Tuse`, columns by the producer's stage and `GRF_WD_W_Sel`; (3) takes no entry. -/
def tableEntry : BitVec 2 → Stage → BitVec 2 → Entry
  | 0b11#2, _, _ => .F0
  | _, .W, _ => .F1
  | _, .E, 0b10#2 => .F43
  | _, .E, 0b11#2 => .F44
  | _, .M, 0b00#2 => .F21
  | _, .M, 0b10#2 => .F23
  | _, .M, 0b11#2 => .F24
  | 0b00#2, .E, 0b00#2 => .S1
  | 0b00#2, .E, _ => .S2
  | 0b00#2, .M, _ => .S3
  | 0b01#2, .E, 0b00#2 => .F51
  | 0b01#2, .E, _ => .S4
  | 0b01#2, .M, _ => .F32
  | _, .E, 0b00#2 => .F51
  | _, .E, _ => .F62
  | _, .M, _ => .F32

/-- What the control logic sees of a stage: `GRFWE_X`, `GRF_A3_X`, `GRF_WD_W_Sel_X` (rules R316, R317). -/
structure Producer where
  grfWE : Bool
  a3 : Reg
  wdSel : BitVec 2
  deriving DecidableEq, Repr

/-- The match condition (rule R273). -/
def Producer.matched (p : Producer) (field : Reg) : Bool := field != 0#5 && p.grfWE && field == p.a3

/-- The entry a register field meets: E before M before W, the youngest producer (rules R273, R274). -/
def fieldEntry (tuse : BitVec 2) (field : Reg) (e m w : Producer) : Entry :=
  if e.matched field then tableEntry tuse .E e.wdSel
  else if m.matched field then tableEntry tuse .M m.wdSel
  else if w.matched field then tableEntry tuse .W w.wdSel
  else .F0

/-- The S entries (rule R275). -/
def Entry.isStall : Entry → Bool
  | .S1 | .S2 | .S3 | .S4 => true
  | _ => false

/-- `FMUX_V1_D_Sel`, `FMUX_V2_D_Sel` (rules R276, R277). -/
def Entry.selD : Entry → BitVec 3
  | .F21 => 0b011#3
  | .F23 => 0b100#3
  | .F24 => 0b101#3
  | .F43 => 0b110#3
  | .F44 => 0b111#3
  | _ => 0b000#3

/-- `FMUX_V1_E_Sel`, `FMUX_V2_E_Sel` (rules R276, R277). -/
def Entry.selE : Entry → BitVec 2
  | .F51 => 0b11#2
  | .F32 => 0b10#2
  | _ => 0b00#2

/-- `FMUX_DM_D_M_Sel` (rule R277, C6). -/
def Entry.selDM : Entry → Bool
  | .F62 => true
  | _ => false

/-- CTRL_Stall (rules R275, R280, R316): a stall entry of either field, or SMULTDIV. -/
def ctrlStall (rsEntry rtEntry : Entry) (isMultDiv start busy : Bool) : Bool :=
  rsEntry.isStall || rtEntry.isStall || (isMultDiv && (start || busy))

/-! ### Multiplexers (rules R276, R277, R309) -/

/-- FMUX_V1_D, FMUX_V2_D (rules R266, R276). -/
def fmuxD (sel : BitVec 3) (v opM ext32M pc8M ext32E pc8E : Word) : Word :=
  match sel with
  | 0b000#3 => v
  | 0b011#3 => opM
  | 0b100#3 => ext32M
  | 0b101#3 => pc8M
  | 0b110#3 => ext32E
  | 0b111#3 => pc8E
  | c => Config.openFMUXD c v

/-- FMUX_V1_E, FMUX_V2_E (rules R266, R276). -/
def fmuxE (sel : BitVec 2) (v dmQW opM : Word) : Word :=
  match sel with
  | 0b00#2 => v
  | 0b10#2 => dmQW
  | 0b11#2 => opM
  | _ => Config.openFMUXE v

/-- MUX_GRF_A3_D (rule R309, C9). -/
def muxA3 (sel : BitVec 2) (rd rt : Reg) : Reg :=
  match sel with
  | 0b00#2 => rd
  | 0b10#2 => rt
  | 0b11#2 => 31#5
  | _ => Config.openA3 rd rt

/-- MUX_GRF_WD_W (rule R309). -/
def muxWD (sel : BitVec 2) (op dmQ ext32 pc8 : Word) : Word :=
  match sel with
  | 0b00#2 => op
  | 0b01#2 => dmQ
  | 0b10#2 => ext32
  | _ => pc8

/-- A read port of the GRF with internal forwarding, F1 (rule R282). -/
def grfRead (g : Regs) (a : Reg) (we : Bool) (a3 : Reg) (d : Word) : Word :=
  if we && a3 != 0#5 && a == a3 then d else readReg g a

end Sys2Proof.Machine
end

