-- ==== Sys2Proof/Machine/PipeState.lean ====
section
/-! DEFINITION. The pipeline-level state as plain data (`10_state.md` rule R31: "A model at the pipeline level carries all of
it"; `70_reset_and_hazards.md` rules R300 to R303, R306, R309, R313), and its reset value (rules R33, R241, R242). -/

namespace Sys2Proof.Machine

/-- FR_D (rule R300). `instr` is `i_inst_rdata`; where the ROM gives no word it keeps why (log 19). In this and the next
three registers `live` is the model's own bit: the stage holds a fetched instruction and not a bubble (rule R242, log 13). -/
structure FRD where
  instr : Fetched
  instrAddr : Word
  live : Bool
  deriving DecidableEq, Repr

/-- FR_E (rule R301), and the model's bit `shiftByReg` (log 17). -/
structure FRE where
  dmWE : Bool
  grfWE : Bool
  dmSel : BitVec 3
  funcSel : BitVec 2
  opSel : BitVec 2
  wdSel : BitVec 2
  aluBSel : Bool
  opESel : Bool
  multSel : BitVec 3
  isMultDiv : Bool
  v1 : Word
  v2 : Word
  shamt : Shamt
  a3 : Reg
  ext32 : Word
  pc8 : Word
  fmuxV1 : BitVec 2
  fmuxV2 : BitVec 2
  fmuxDM : Bool
  shiftByReg : Bool
  live : Bool
  deriving DecidableEq, Repr

/-- FR_M (rule R302). -/
structure FRM where
  dmWE : Bool
  grfWE : Bool
  dmSel : BitVec 3
  wdSel : BitVec 2
  v2 : Word
  op : Word
  a3 : Reg
  ext32 : Word
  pc8 : Word
  fmuxDM : Bool
  live : Bool
  deriving DecidableEq, Repr

/-- FR_W (rule R303). -/
structure FRW where
  grfWE : Bool
  wdSel : BitVec 2
  op : Word
  dmQ : Word
  a3 : Reg
  ext32 : Word
  pc8 : Word
  live : Bool
  deriving DecidableEq, Repr

/-- MULT (rules R31, R290, R291, R313): `HI`, `LO`, the busy cycles still to come (`Busy` is `count` positive), and the
result under way (log 18). -/
structure MultUnit where
  hi : Word
  lo : Word
  count : Nat
  nextHi : Word
  nextLo : Word
  deriving DecidableEq, Repr

/-- The pipeline-level state. -/
structure PipeState where
  /-- IFU_PC's register `Q` (rules R24, R306). -/
  pc : Word
  gpr : Regs
  mult : MultUnit
  frD : FRD
  frE : FRE
  frM : FRM
  frW : FRW
  ram : Memory
  rom : Memory
  params : Params
  /-- The input `RESET` is active. -/
  resetPin : Bool
  deriving DecidableEq, Repr

/-- An empty FR_D: the word 0, at address 0 (rule R242). It decodes as `sll $0, $0, 0` and will write register 0, but it
is no instruction of the run. -/
def FRD.zero : FRD := { instr := .word 0#32, instrAddr := 0#32, live := false }

/-- A bubble in FR_E: every field 0 (rules R242, R281). -/
def FRE.zero : FRE :=
  { dmWE := false, grfWE := false, dmSel := 0#3, funcSel := 0#2, opSel := 0#2, wdSel := 0#2, aluBSel := false,
    opESel := false, multSel := 0#3, isMultDiv := false, v1 := 0#32, v2 := 0#32, shamt := 0#5, a3 := 0#5,
    ext32 := 0#32, pc8 := 0#32, fmuxV1 := 0#2, fmuxV2 := 0#2, fmuxDM := false, shiftByReg := false,
    live := false }

/-- A bubble in FR_M. -/
def FRM.zero : FRM :=
  { dmWE := false, grfWE := false, dmSel := 0#3, wdSel := 0#2, v2 := 0#32, op := 0#32, a3 := 0#5, ext32 := 0#32,
    pc8 := 0#32, fmuxDM := false, live := false }

/-- A bubble in FR_W. -/
def FRW.zero : FRW :=
  { grfWE := false, wdSel := 0#2, op := 0#32, dmQ := 0#32, a3 := 0#5, ext32 := 0#32, pc8 := 0#32, live := false }

/-- MULT at reset: idle (D4). -/
def MultUnit.zero : MultUnit := { hi := 0#32, lo := 0#32, count := 0, nextHi := 0#32, nextLo := 0#32 }

/-- The pipeline right after reset (rules R33, R241, D26; log 1), with the memories and parameters of `State.reset`. -/
def PipeState.reset : PipeState :=
  { pc := 0x00003000#32, gpr := Vector.replicate 31 0#32, mult := .zero, frD := .zero, frE := .zero, frM := .zero,
    frW := .zero, ram := [], rom := [], params := Params.default, resetPin := false }

/-- The nine top-level ports the document names, with the value each has in a cycle (rule R32). -/
structure Ports where
  iInstAddr : Word
  iInstRdata : Fetched
  mDataAddr : Word
  mDataRdata : Word
  mDataWdata : Word
  mDataByteen : BitVec 4
  wGrfWe : Bool
  wGrfAddr : Reg
  wGrfWdata : Word
  deriving DecidableEq, Repr

end Sys2Proof.Machine
end

