-- ==== Sys2Proof/Machine/Pipeline.lean ====
section
/-! DEFINITION. The pipeline level: one clock cycle of the five stages (`70_reset_and_hazards.md` rules R265, R266). Names
with a stage letter are the document's. The model's stops at this level are in `pipeStop` (log 19). -/

namespace Sys2Proof.Machine

/-! ### Stage W -/

/-- GRF's `D`, `w_grf_wdata`: MUX_GRF_WD_W (rule R309). -/
def PipeState.wdW (p : PipeState) : Word := muxWD p.frW.wdSel p.frW.op p.frW.dmQ p.frW.ext32 p.frW.pc8

/-- The GRF after the write of stage W (rules R309, R21). -/
def PipeState.grfNext (p : PipeState) : Regs := if p.frW.grfWE then writeReg p.gpr p.frW.a3 p.wdW else p.gpr

/-! ### Stage M -/

/-- FMUX_DM_D_M: the store data, or the load's value from W, F62 (rules R266, R277). -/
def PipeState.dmD (p : PipeState) : Word := if p.frM.fmuxDM then p.frW.dmQ else p.frM.v2

/-- `m_data_rdata` (rule R50). -/
def PipeState.rdata (p : PipeState) : Word := rdataModule p.params p.ram p.frM.op

/-- `m_data_byteen` (rule R49). -/
def PipeState.byteenM (p : PipeState) : BitVec 4 := byteenModule p.frM.dmWE p.frM.dmSel p.frM.op

/-- `m_data_wdata` (rule R49). -/
def PipeState.wdataM (p : PipeState) : Word := wdataModule p.frM.dmWE p.frM.dmSel p.frM.op p.dmD p.rdata

/-- DM's `Q` (rule R50). -/
def PipeState.dmQ (p : PipeState) : Word := qModule p.frM.dmSel p.frM.op p.rdata

/-- The RAM after the cycle (rules R49, D18). -/
def PipeState.ramNext (p : PipeState) : Memory := ramWriteLanes p.ram p.frM.op p.byteenM p.wdataM

/-- Stage M holds a load or a store: `DMWE`, or a register write from `DM_Q` (rule R315). -/
def PipeState.accessM (p : PipeState) : Bool := p.frM.dmWE || (p.frM.grfWE && p.frM.wdSel == 0b01#2)

/-! ### Stage E -/

/-- FMUX_V1_E (rule R266). -/
def PipeState.v1E (p : PipeState) : Word := fmuxE p.frE.fmuxV1 p.frE.v1 p.frW.dmQ p.frM.op

/-- FMUX_V2_E (rule R266). -/
def PipeState.v2E (p : PipeState) : Word := fmuxE p.frE.fmuxV2 p.frE.v2 p.frW.dmQ p.frM.op

/-- MUX_ALU_B_E (rule R312). -/
def PipeState.aluB (p : PipeState) : Word := if p.frE.aluBSel then p.frE.ext32 else p.v2E

/-- ALU's `OP` (rule R312). -/
def PipeState.aluOp (p : PipeState) : Word :=
  aluModule p.frE.opSel p.frE.funcSel p.frE.shiftByReg p.v1E p.aluB p.frE.shamt

/-- MUX_OP_E (rule R313). -/
def PipeState.opE (p : PipeState) : Word :=
  if p.frE.opESel then hiloModule p.frE.multSel p.mult.hi p.mult.lo else p.aluOp

/-- MULT's `Start` (rule R290). -/
def PipeState.start (p : PipeState) : Bool := multStart p.frE.isMultDiv p.frE.multSel

/-- MULT's `Busy` (rules R31, R290). -/
def PipeState.busy (p : PipeState) : Bool := decide (0 < p.mult.count)

/-- MULT at an edge when E gives it nothing: the last busy cycle writes `HI` and `LO` (rule R291). -/
def MultUnit.tick (m : MultUnit) : MultUnit :=
  match m.count with
  | 0 => m
  | 1 => { m with hi := m.nextHi, lo := m.nextLo, count := 0 }
  | n + 2 => { m with count := n + 1 }

/-- MULT at the edge that ends the cycle (rules R290, R291, R293): a start samples the operands and raises `Busy`; the
last busy cycle writes `HI` and `LO`; mthi and mtlo write one register in one cycle, gated by `ISMULTDIV` (rule R313). -/
def PipeState.multNext (p : PipeState) : MultUnit :=
  if p.start then
    { p.mult with count := multLatency p.frE.multSel, nextHi := (multCompute p.frE.multSel p.v1E p.v2E).1,
                  nextLo := (multCompute p.frE.multSel p.v1E p.v2E).2 }
  else if p.busy then p.mult.tick
  else if p.frE.isMultDiv && p.frE.multSel == 0b001#3 then { p.mult with hi := p.v1E }
  else if p.frE.isMultDiv && p.frE.multSel == 0b011#3 then { p.mult with lo := p.v1E }
  else p.mult

/-! ### Stage D -/

/-- The word in D; where the ROM gave none the cycle stops (`pipeStop`) and no value of D matters. -/
def PipeState.wordD (p : PipeState) : Word :=
  match p.frD.instr with
  | .word w => w
  | .stop _ => 0#32

/-- CTRL_Decoder's outputs for the word in D (rule R315). -/
def PipeState.ctrlD (p : PipeState) : Controls :=
  ctrlDecoder (fOpcode p.wordD) (fFunct p.wordD) (fRt p.wordD)

/-- Stage E as a producer (rule R316). -/
def PipeState.prodE (p : PipeState) : Producer := { grfWE := p.frE.grfWE, a3 := p.frE.a3, wdSel := p.frE.wdSel }

/-- Stage M as a producer (rule R316). -/
def PipeState.prodM (p : PipeState) : Producer := { grfWE := p.frM.grfWE, a3 := p.frM.a3, wdSel := p.frM.wdSel }

/-- Stage W as a producer: the GRF's internal forwarding (rules R274, R282). -/
def PipeState.prodW (p : PipeState) : Producer := { grfWE := p.frW.grfWE, a3 := p.frW.a3, wdSel := p.frW.wdSel }

/-- The table's entry for `rs` (rules R273, R274). -/
def PipeState.entryRs (p : PipeState) : Entry := fieldEntry p.ctrlD.tuseRs (fRs p.wordD) p.prodE p.prodM p.prodW

/-- The table's entry for `rt` (rules R273, R274, C13). -/
def PipeState.entryRt (p : PipeState) : Entry := fieldEntry p.ctrlD.tuseRt (fRt p.wordD) p.prodE p.prodM p.prodW

/-- The stall signal (rules R275, R280, R316). -/
def PipeState.stall (p : PipeState) : Bool := ctrlStall p.entryRs p.entryRt p.ctrlD.isMultDiv p.start p.busy

/-- FMUX_V1_D (rules R266, R276, R282). -/
def PipeState.v1D (p : PipeState) : Word :=
  fmuxD p.entryRs.selD (grfRead p.gpr (fRs p.wordD) p.frW.grfWE p.frW.a3 p.wdW)
    p.frM.op p.frM.ext32 p.frM.pc8 p.frE.ext32 p.frE.pc8

/-- FMUX_V2_D (rules R266, R277, R282). -/
def PipeState.v2D (p : PipeState) : Word :=
  fmuxD p.entryRt.selD (grfRead p.gpr (fRt p.wordD) p.frW.grfWE p.frW.a3 p.wdW)
    p.frM.op p.frM.ext32 p.frM.pc8 p.frE.ext32 p.frE.pc8

/-- `BranchComp` (rules R168, R310). -/
def PipeState.branchComp (p : PipeState) : Bool := compModule p.ctrlD.compSel p.v1D p.v2D

/-- `NPC` (rules R305, R307). -/
def PipeState.npcD (p : PipeState) : Word :=
  npcModule p.ctrlD.npcSel p.pc p.branchComp (fImm p.wordD) (fIndex p.wordD) p.v1D

/-- What FR_E takes from D when nothing stalls (rule R301). -/
def PipeState.freFromD (p : PipeState) : FRE :=
  { dmWE := p.ctrlD.dmWE, grfWE := p.ctrlD.grfWE, dmSel := p.ctrlD.dmSel, funcSel := p.ctrlD.funcSel,
    opSel := p.ctrlD.opSel, wdSel := p.ctrlD.wdSel, aluBSel := p.ctrlD.aluBSel, opESel := p.ctrlD.opESel,
    multSel := p.ctrlD.multSel, isMultDiv := p.ctrlD.isMultDiv, v1 := p.v1D, v2 := p.v2D,
    shamt := fShamt p.wordD, a3 := muxA3 p.ctrlD.a3Sel (fRd p.wordD) (fRt p.wordD),
    ext32 := extModule p.ctrlD.extSel (fImm p.wordD), pc8 := p.frD.instrAddr + 8#32,
    fmuxV1 := p.entryRs.selE, fmuxV2 := p.entryRt.selE, fmuxDM := p.entryRt.selDM,
    shiftByReg := p.ctrlD.shiftByReg, live := p.frD.live }

/-! ### Stage F and the ports -/

/-- `i_inst_rdata`: the ROM's answer to `PC` (rules R43, R300). -/
def PipeState.instrF (p : PipeState) : Fetched := fetchWord p.params p.rom p.pc

/-- The ports in this cycle (rules R23, R32, R49, R50). -/
def PipeState.ports (p : PipeState) : Ports :=
  { iInstAddr := p.pc, iInstRdata := p.instrF, mDataAddr := p.frM.op, mDataRdata := p.rdata,
    mDataWdata := p.wdataM, mDataByteen := p.byteenM, wGrfWe := p.frW.grfWE, wGrfAddr := p.frW.a3,
    wGrfWdata := p.wdW }

/-! ### The model's stops -/

/-- What a cycle answers. -/
abbrev PipeResult := Host.Outcome PipeState Fault Refusal

/-- Where the model stops in M: the access there is misaligned or outside the window (rule R211, D7, D8). -/
def PipeState.stopM (p : PipeState) : Option Fault :=
  if p.accessM then dataFault p.params p.frM.op (accessBytes p.frM.dmSel) else none

/-- Where the model stops in D (rule R211): no word was fetched (D7, D9); a word of no row (D10); a jr or jalr, about to
leave D, whose target is no multiple of 4 (D9). A control transfer in a delay slot is executed as rule R307 says (log 19). -/
def PipeState.stopD (p : PipeState) : Option PipeResult :=
  match p.frD.instr with
  | .stop f => some (.fault f)
  | .word w =>
    match decodeWord w with
    | .rejected _ => if p.params.illegalAsNop then none else some (.refused (.unrecognisedInstruction w))
    | .instr _ =>
      if p.ctrlD.npcSel == 0b11#2 && !p.stall && !instrAligned p.v1D then
        some (.fault (.misalignedInstructionAddress p.v1D))
      else none

/-- The stop that a cycle meets, the older instruction's first (log 19). -/
def PipeState.pipeStop (p : PipeState) : Option PipeResult :=
  match p.stopM with
  | some f => some (.fault f)
  | none => p.stopD

/-- Every instruction older than the one that stops is complete: none is left in the stages ahead of it, and MULT is idle
(rule R262, log 19). -/
def PipeState.olderDone (p : PipeState) : Bool :=
  !p.frW.live && !p.busy && (p.stopM.isSome || (!p.frE.live && !p.frM.live))

/-! ### The events of the run (rules R23, R35, R242) -/

/-- The write-back that the ports show in this cycle; a bubble's is no event of the run (rule R242). -/
def PipeState.regEvents (p : PipeState) : List Event :=
  if p.frW.live && p.ports.wGrfWe then [.regWrite p.ports.wGrfAddr p.ports.wGrfWdata] else []

/-- The store that the ports show in this cycle; an access at which the model stops is none. -/
def PipeState.memEvents (p : PipeState) : List Event :=
  if p.stopM.isNone && p.ports.mDataByteen != 0#4 then
    [.memWrite p.ports.mDataAddr p.ports.mDataByteen p.ports.mDataWdata]
  else []

/-- The events of this cycle: the write-back of the older instruction, then the store (rule R35). -/
def PipeState.portEvents (p : PipeState) : List Event := p.regEvents ++ p.memEvents

/-! ### One clock cycle -/

/-- The rising edge (rules R266, R281): with `hold` PC and FR_D keep their values and a bubble enters E; E, M and W
always advance. -/
def PipeState.advance (p : PipeState) (hold : Bool) : PipeState :=
  { p with
    gpr := p.grfNext
    ram := p.ramNext
    mult := p.multNext
    frW := { grfWE := p.frM.grfWE, wdSel := p.frM.wdSel, op := p.frM.op, dmQ := p.dmQ, a3 := p.frM.a3,
             ext32 := p.frM.ext32, pc8 := p.frM.pc8, live := p.frM.live }
    frM := { dmWE := p.frE.dmWE, grfWE := p.frE.grfWE, dmSel := p.frE.dmSel, wdSel := p.frE.wdSel, v2 := p.v2E,
             op := p.opE, a3 := p.frE.a3, ext32 := p.frE.ext32, pc8 := p.frE.pc8, fmuxDM := p.frE.fmuxDM,
             live := p.frE.live }
    frE := if hold then FRE.zero else p.freFromD
    frD := if hold then p.frD else { instr := p.instrF, instrAddr := p.pc, live := true }
    pc := if hold then p.pc else p.npcD }

/-- The rising edge where the model does not stop: held by a stall (rules R275, R280, R281). -/
def PipeState.edge (p : PipeState) : PipeState := p.advance p.stall

/-- A cycle in which older instructions complete ahead of one that stops (log 19). One that stops in D is held there as a
stall holds it. One that stops in M is held there with everything behind it, while W and MULT go on. -/
def PipeState.drain (p : PipeState) : PipeState :=
  if p.stopM.isSome then { p with gpr := p.grfNext, frW := FRW.zero, mult := p.mult.tick } else p.advance true

/-- The edge with `RESET` active: every register that has a reset input takes it; the memories do not (rules R240, R241). -/
def PipeState.applyReset (p : PipeState) : PipeState :=
  { PipeState.reset with ram := p.ram, rom := p.rom, params := p.params, resetPin := p.resetPin }

/-- One clock cycle (rule R266). A stop is answered when every older instruction is complete, so that it comes where the
architectural step has it (rule R262). -/
def cycle (p : PipeState) : PipeResult :=
  if p.resetPin then .next p.applyReset
  else
    match p.pipeStop with
    | some r => if p.olderDone then r else .next p.drain
    | none => .next p.edge

/-- The pipeline as a machine of the host's form, for running it cycle by cycle. -/
def pipelineMachine : Host.Core :=
  { State := PipeState, Fault := Fault, Refusal := Refusal, step := cycle, reset := PipeState.reset }

/-! ### What a run shows (rules R35, R262) -/

/-- The events of the first `k` cycles of a run. A cycle whose edge has `RESET` active counts what its ports show, a
write-back in W and a store in M that the edge then drops: rule R35 leaves it open whether these are events of the run
(DESIGN CHOICE, unsafe, log 13). -/
def PipeState.trace : Nat → PipeState → List Event
  | 0, _ => []
  | k + 1, p =>
    match cycle p with
    | .next q => p.portEvents ++ q.trace k
    | _ => []

/-- The addresses of the instructions that stand in W in the first `k` cycles of a run, in order; in a cycle whose edge has
`RESET` active too, as in `trace` (DESIGN CHOICE, unsafe, log 13). -/
def PipeState.retired : Nat → PipeState → List Word
  | 0, _ => []
  | k + 1, p =>
    match cycle p with
    | .next q => (if p.frW.live then [p.frW.pc8 - 8#32] else []) ++ q.retired k
    | _ => []

/-- The empty pipeline about to fetch the instruction at `s.pc`, with the registers and memories of `s`. -/
def PipeState.startAt (s : State) : PipeState :=
  { PipeState.reset with
    pc := s.pc, gpr := s.gpr, mult := { MultUnit.zero with hi := s.hi, lo := s.lo }, ram := s.ram, rom := s.rom,
    params := s.params, resetPin := s.resetPin }

end Sys2Proof.Machine
end

