-- ==== Sys2Proof/Machine/Run.lean ====
section
/-! DEFINITION. A run of the architectural machine and its end (`70_reset_and_hazards.md` rule R248, D16; log 24). The hardware
never stops (rule R226); `HALT_PC` is a parameter of the run and ends the run, not the machine: `step` does not read it. -/

namespace Sys2Proof.Machine

/-- `pc` equals `HALT_PC` before a step (rule R248). -/
def State.atHalt (s : State) : Bool := s.params.haltPC == some s.pc

/-- How a run of at most so many steps ends. -/
inductive RunEnd where
  | halted (s : State)
  | running (s : State)
  | fault (r : Fault)
  | refused (r : Refusal)
  deriving DecidableEq, Repr

/-- At most `n` steps, ending when `pc` equals `HALT_PC` before a step, or at the first stop (rule R248). -/
def runToHalt : Nat → State → RunEnd
  | 0, s => if s.atHalt then .halted s else .running s
  | n + 1, s =>
    if s.atHalt then .halted s
    else
      match step s with
      | .next t => runToHalt n t
      | .fault r => .fault r
      | .refused r => .refused r

/-- The addresses of the instructions that at most `n` steps execute, in order (rule R262). -/
def State.executed : Nat → State → List Word
  | 0, _ => []
  | n + 1, s =>
    match step s with
    | .next t => (if s.resetPin then [] else [s.pc]) ++ t.executed n
    | _ => []

end Sys2Proof.Machine
end

