-- ==== Sys2Proof/WellFormed.lean ====
section
/-! DEFINITION. What is well formed. Every operand of `Instr` has exactly the width of its field
(`30_encoding.md` rule R70), so an instruction with an operand out of range cannot be written and
`Instr.wellFormed` holds of all. The checks with content are those of the parameters of a run
(`20_memory.md` rule R53, `92_eei_decisions.md`, last table). -/

namespace Sys2Proof

/-- Every instruction of the type is one of the machine: the types carry the field widths of rule R70. -/
def Instr.wellFormed (_ : Instr) : Bool := true

/-- The address of the first instruction fetched (rules R33, R53). -/
def resetVector : Word := 0x00003000#32

/-- `IM_BASE` and `IM_SIZE` are multiples of 4 (D5). -/
def Params.imAligned (p : Params) : Bool := p.imBase % 4 == 0 && p.imSize % 4 == 0

/-- `IM_BASE <= 0x3000 < IM_BASE + IM_SIZE` (rule R53). -/
def Params.imHoldsReset (p : Params) : Bool :=
  decide (p.imBase ≤ resetVector.toNat) && decide (resetVector.toNat < p.imBase + p.imSize)

/-- The instruction window does not wrap (D5). -/
def Params.imNoWrap (p : Params) : Bool := decide (p.imBase + p.imSize ≤ 2 ^ 32)

/-- `DM_BASE` and `DM_SIZE` are multiples of 4 (D6). -/
def Params.dmAligned (p : Params) : Bool := p.dmBase % 4 == 0 && p.dmSize % 4 == 0

/-- The data window does not wrap (D6). -/
def Params.dmNoWrap (p : Params) : Bool := decide (p.dmBase + p.dmSize ≤ 2 ^ 32)

/-- `HALT_PC`, when given, lies inside the instruction window (D16). -/
def Params.haltInside (p : Params) : Bool :=
  match p.haltPC with
  | none => true
  | some a => decide (p.imBase ≤ a.toNat) && decide (a.toNat < p.imBase + p.imSize)

/-- The constraints the spec puts on the parameters of a run. -/
def Params.wellFormed (p : Params) : Bool :=
  p.imAligned && p.imHoldsReset && p.imNoWrap && p.dmAligned && p.dmNoWrap && p.haltInside

end Sys2Proof
end

