-- ==== Sys2Proof/Safety.lean ====
section
/-! DEFINITION. The terms in which statements speak of safe states and of what a step does: encodings, frames, the
invariant of the architectural state, and what the pipeline's forwarding must deliver. The machine does not use this file. -/

namespace Sys2Proof.Machine

/-! ### Encodings, by the fields the rules name -/

/-- Every word of opcode 000000 and this `funct` decodes to `i`, whatever its other fields hold (rules R73, R77). -/
def DecodesSpecial (fn : BitVec 6) (i : Word → Instr) : Prop :=
  ∀ w : Word, fOpcode w = 0b000000#6 → fFunct w = fn → decodeWord w = .instr (i w)

/-- Every word of this opcode decodes to `i` (rule R76). -/
def DecodesPrimary (op : BitVec 6) (i : Word → Instr) : Prop :=
  ∀ w : Word, fOpcode w = op → decodeWord w = .instr (i w)

/-- Every word of this opcode and this `rt` decodes to `i` (rules R78, R79). -/
def DecodesWithRt (op : BitVec 6) (rt : Reg) (i : Word → Instr) : Prop :=
  ∀ w : Word, fOpcode w = op → fRt w = rt → decodeWord w = .instr (i w)

/-! ### What each instruction reads and writes (rules R22, R27, R260) -/

/-- The general register an instruction writes (the "writes" column of rule R22). -/
def Instr.dest : Instr → Option Reg
  | .add _ _ rd => some rd
  | .addu _ _ rd => some rd
  | .sub _ _ rd => some rd
  | .subu _ _ rd => some rd
  | .addi _ rt _ => some rt
  | .addiu _ rt _ => some rt
  | .and _ _ rd => some rd
  | .or _ _ rd => some rd
  | .xor _ _ rd => some rd
  | .nor _ _ rd => some rd
  | .sll _ rd _ => some rd
  | .srl _ rd _ => some rd
  | .sra _ rd _ => some rd
  | .sllv _ _ rd => some rd
  | .srlv _ _ rd => some rd
  | .srav _ _ rd => some rd
  | .andi _ rt _ => some rt
  | .ori _ rt _ => some rt
  | .xori _ rt _ => some rt
  | .mult _ _ => none
  | .multu _ _ => none
  | .div _ _ => none
  | .divu _ _ => none
  | .mfhi rd => some rd
  | .mthi _ => none
  | .mflo rd => some rd
  | .mtlo _ => none
  | .slt _ _ rd => some rd
  | .sltu _ _ rd => some rd
  | .slti _ rt _ => some rt
  | .sltiu _ rt _ => some rt
  | .lui rt _ => some rt
  | .bltz _ _ => none
  | .bgez _ _ => none
  | .beq _ _ _ => none
  | .bne _ _ _ => none
  | .blez _ _ => none
  | .bgtz _ _ => none
  | .jr _ => none
  | .jalr _ rd => some rd
  | .j _ => none
  | .jal _ => some 31#5
  | .lb _ rt _ => some rt
  | .lh _ rt _ => some rt
  | .lw _ rt _ => some rt
  | .lbu _ rt _ => some rt
  | .lhu _ rt _ => some rt
  | .sb _ _ _ => none
  | .sh _ _ _ => none
  | .sw _ _ _ => none

/-- The general registers an instruction reads (the "reads" column of rule R22). -/
def Instr.reads : Instr → List Reg
  | .add rs rt _ => [rs, rt]
  | .addu rs rt _ => [rs, rt]
  | .sub rs rt _ => [rs, rt]
  | .subu rs rt _ => [rs, rt]
  | .addi rs _ _ => [rs]
  | .addiu rs _ _ => [rs]
  | .and rs rt _ => [rs, rt]
  | .or rs rt _ => [rs, rt]
  | .xor rs rt _ => [rs, rt]
  | .nor rs rt _ => [rs, rt]
  | .sll rt _ _ => [rt]
  | .srl rt _ _ => [rt]
  | .sra rt _ _ => [rt]
  | .sllv rs rt _ => [rs, rt]
  | .srlv rs rt _ => [rs, rt]
  | .srav rs rt _ => [rs, rt]
  | .andi rs _ _ => [rs]
  | .ori rs _ _ => [rs]
  | .xori rs _ _ => [rs]
  | .mult rs rt => [rs, rt]
  | .multu rs rt => [rs, rt]
  | .div rs rt => [rs, rt]
  | .divu rs rt => [rs, rt]
  | .mfhi _ => []
  | .mthi rs => [rs]
  | .mflo _ => []
  | .mtlo rs => [rs]
  | .slt rs rt _ => [rs, rt]
  | .sltu rs rt _ => [rs, rt]
  | .slti rs _ _ => [rs]
  | .sltiu rs _ _ => [rs]
  | .lui _ _ => []
  | .bltz rs _ => [rs]
  | .bgez rs _ => [rs]
  | .beq rs rt _ => [rs, rt]
  | .bne rs rt _ => [rs, rt]
  | .blez rs _ => [rs]
  | .bgtz rs _ => [rs]
  | .jr rs => [rs]
  | .jalr rs _ => [rs]
  | .j _ => []
  | .jal _ => []
  | .lb rs _ _ => [rs]
  | .lh rs _ _ => [rs]
  | .lw rs _ _ => [rs]
  | .lbu rs _ _ => [rs]
  | .lhu rs _ _ => [rs]
  | .sb rs rt _ => [rs, rt]
  | .sh rs rt _ => [rs, rt]
  | .sw rs rt _ => [rs, rt]

/-- The ten control transfers (rule R260). -/
def Instr.isControlTransfer : Instr → Bool
  | .add _ _ _ => false
  | .addu _ _ _ => false
  | .sub _ _ _ => false
  | .subu _ _ _ => false
  | .addi _ _ _ => false
  | .addiu _ _ _ => false
  | .and _ _ _ => false
  | .or _ _ _ => false
  | .xor _ _ _ => false
  | .nor _ _ _ => false
  | .sll _ _ _ => false
  | .srl _ _ _ => false
  | .sra _ _ _ => false
  | .sllv _ _ _ => false
  | .srlv _ _ _ => false
  | .srav _ _ _ => false
  | .andi _ _ _ => false
  | .ori _ _ _ => false
  | .xori _ _ _ => false
  | .mult _ _ => false
  | .multu _ _ => false
  | .div _ _ => false
  | .divu _ _ => false
  | .mfhi _ => false
  | .mthi _ => false
  | .mflo _ => false
  | .mtlo _ => false
  | .slt _ _ _ => false
  | .sltu _ _ _ => false
  | .slti _ _ _ => false
  | .sltiu _ _ _ => false
  | .lui _ _ => false
  | .bltz _ _ => true
  | .bgez _ _ => true
  | .beq _ _ _ => true
  | .bne _ _ _ => true
  | .blez _ _ => true
  | .bgtz _ _ => true
  | .jr _ => true
  | .jalr _ _ => true
  | .j _ => true
  | .jal _ => true
  | .lb _ _ _ => false
  | .lh _ _ _ => false
  | .lw _ _ _ => false
  | .lbu _ _ _ => false
  | .lhu _ _ _ => false
  | .sb _ _ _ => false
  | .sh _ _ _ => false
  | .sw _ _ _ => false

/-- The instructions that write `HI` (rule R27). -/
def Instr.writesHi : Instr → Bool
  | .add _ _ _ => false
  | .addu _ _ _ => false
  | .sub _ _ _ => false
  | .subu _ _ _ => false
  | .addi _ _ _ => false
  | .addiu _ _ _ => false
  | .and _ _ _ => false
  | .or _ _ _ => false
  | .xor _ _ _ => false
  | .nor _ _ _ => false
  | .sll _ _ _ => false
  | .srl _ _ _ => false
  | .sra _ _ _ => false
  | .sllv _ _ _ => false
  | .srlv _ _ _ => false
  | .srav _ _ _ => false
  | .andi _ _ _ => false
  | .ori _ _ _ => false
  | .xori _ _ _ => false
  | .mult _ _ => true
  | .multu _ _ => true
  | .div _ _ => true
  | .divu _ _ => true
  | .mfhi _ => false
  | .mthi _ => true
  | .mflo _ => false
  | .mtlo _ => false
  | .slt _ _ _ => false
  | .sltu _ _ _ => false
  | .slti _ _ _ => false
  | .sltiu _ _ _ => false
  | .lui _ _ => false
  | .bltz _ _ => false
  | .bgez _ _ => false
  | .beq _ _ _ => false
  | .bne _ _ _ => false
  | .blez _ _ => false
  | .bgtz _ _ => false
  | .jr _ => false
  | .jalr _ _ => false
  | .j _ => false
  | .jal _ => false
  | .lb _ _ _ => false
  | .lh _ _ _ => false
  | .lw _ _ _ => false
  | .lbu _ _ _ => false
  | .lhu _ _ _ => false
  | .sb _ _ _ => false
  | .sh _ _ _ => false
  | .sw _ _ _ => false

/-- The instructions that write `LO` (rule R27). -/
def Instr.writesLo : Instr → Bool
  | .add _ _ _ => false
  | .addu _ _ _ => false
  | .sub _ _ _ => false
  | .subu _ _ _ => false
  | .addi _ _ _ => false
  | .addiu _ _ _ => false
  | .and _ _ _ => false
  | .or _ _ _ => false
  | .xor _ _ _ => false
  | .nor _ _ _ => false
  | .sll _ _ _ => false
  | .srl _ _ _ => false
  | .sra _ _ _ => false
  | .sllv _ _ _ => false
  | .srlv _ _ _ => false
  | .srav _ _ _ => false
  | .andi _ _ _ => false
  | .ori _ _ _ => false
  | .xori _ _ _ => false
  | .mult _ _ => true
  | .multu _ _ => true
  | .div _ _ => true
  | .divu _ _ => true
  | .mfhi _ => false
  | .mthi _ => false
  | .mflo _ => false
  | .mtlo _ => true
  | .slt _ _ _ => false
  | .sltu _ _ _ => false
  | .slti _ _ _ => false
  | .sltiu _ _ _ => false
  | .lui _ _ => false
  | .bltz _ _ => false
  | .bgez _ _ => false
  | .beq _ _ _ => false
  | .bne _ _ _ => false
  | .blez _ _ => false
  | .bgtz _ _ => false
  | .jr _ => false
  | .jalr _ _ => false
  | .j _ => false
  | .jal _ => false
  | .lb _ _ _ => false
  | .lh _ _ _ => false
  | .lw _ _ _ => false
  | .lbu _ _ _ => false
  | .lhu _ _ _ => false
  | .sb _ _ _ => false
  | .sh _ _ _ => false
  | .sw _ _ _ => false

/-! ### Frames -/

/-- Every byte of the data memory reads as before. -/
def State.SameMemory (s t : State) : Prop := ∀ a, ramByte t.ram a = ramByte s.ram a

/-- Every general register reads as before. -/
def State.SameRegs (s t : State) : Prop := ∀ q, t.x q = s.x q

/-- `HI` and `LO` are as before. -/
def State.SameHiLo (s t : State) : Prop := t.hi = s.hi ∧ t.lo = s.lo

/-- What no instruction changes: the ROM, the parameters and the reset input (rules R34, R42). -/
def State.SameFixed (s t : State) : Prop := t.rom = s.rom ∧ t.params = s.params ∧ t.resetPin = s.resetPin

/-- The sequential update (rule R25): the next instruction is no delay-slot instruction. -/
def State.Sequential (s t : State) : Prop :=
  t.pc = s.npc ∧ t.npc = s.npc + 4#32 ∧ t.delaySlot = false

/-- The update of a control transfer (rule R25): the delay-slot instruction is next, `target` after it. -/
def State.Transfers (s t : State) (target : Word) : Prop :=
  t.pc = s.npc ∧ t.npc = target ∧ t.delaySlot = true

/-- The general registers after `x[r] <- v`: `r` reads `v` (0 when `r` is 0, rule R21), every other one as before, and
the write port shows the pair, for `r` = 0 too (rule R23). -/
def State.WritesReg (s t : State) (r : Reg) (v : Word) : Prop :=
  t.x r = (if r = 0#5 then 0#32 else v) ∧ (∀ q, q ≠ r → t.x q = s.x q) ∧ t.events = s.events ++ [.regWrite r v]

/-- `t` is `s` with `x[r] <- v` and the sequential update, and nothing else changed. -/
def State.OnlyWritesReg (s t : State) (r : Reg) (v : Word) : Prop :=
  s.WritesReg t r v ∧ s.SameHiLo t ∧ s.SameMemory t ∧ s.SameFixed t ∧ s.Sequential t

/-- `t` is `s` with `HI <- hi`, `LO <- lo` and the sequential update, and nothing else changed. -/
def State.OnlyWritesHiLo (s t : State) (hi lo : Word) : Prop :=
  t.hi = hi ∧ t.lo = lo ∧ s.SameRegs t ∧ s.SameMemory t ∧ s.SameFixed t ∧ t.events = s.events ∧ s.Sequential t

/-- `t` is `s` with the control transfer to `target`, and nothing else changed. -/
def State.OnlyTransfers (s t : State) (target : Word) : Prop :=
  s.Transfers t target ∧ s.SameRegs t ∧ s.SameHiLo t ∧ s.SameMemory t ∧ s.SameFixed t ∧ t.events = s.events

/-- `t` is `s` with the link `x[r] <- pc + 8` and the control transfer to `target`, and nothing else changed. -/
def State.OnlyLinks (s t : State) (r : Reg) (target : Word) : Prop :=
  s.WritesReg t r (s.pc + 8#32) ∧ s.Transfers t target ∧ s.SameHiLo t ∧ s.SameMemory t ∧ s.SameFixed t

/-- `t` is `s` with the low `n` bytes of `v` stored from `addr` upward, least significant first, the sequential update,
one bus event (rule R49: the full address, the enables of the lanes `addr mod 4` to `addr mod 4 + n - 1`, the value in
those lanes), and nothing else changed. -/
def State.OnlyStores (s t : State) (addr : Word) (n : Nat) (v : Word) : Prop :=
  (∀ k, k < n → ramByte t.ram (addr.toNat + k) = v.extractLsb' (8 * k) 8) ∧
    (∀ a, a < addr.toNat ∨ addr.toNat + n ≤ a → ramByte t.ram a = ramByte s.ram a) ∧
      (∃ (be : BitVec 4) (wdata : Word), t.events = s.events ++ [.memWrite addr be wdata] ∧
        (∀ i, i < 4 → be.getLsbD i = decide (addr.toNat % 4 ≤ i ∧ i < addr.toNat % 4 + n)) ∧
          ∀ k, k < n → wdata.extractLsb' (8 * (addr.toNat % 4 + k)) 8 = v.extractLsb' (8 * k) 8) ∧
        s.SameRegs t ∧ s.SameHiLo t ∧ s.SameFixed t ∧ s.Sequential t

/-- A data access of `n` bytes at `addr` is aligned and wholly inside the data window (rules R51, R53). -/
def State.DataLegal (s : State) (addr : Word) (n : Nat) : Prop :=
  addr.toNat % n = 0 ∧ s.params.dmBase ≤ addr.toNat ∧ addr.toNat + n ≤ s.params.dmBase + s.params.dmSize

/-- The instruction at `pc` is `i`: `RESET` is inactive, `pc` is a multiple of 4 inside the instruction window, and the
four ROM bytes from `pc` decode to `i`. -/
def State.AtInstr (s : State) (i : Instr) : Prop :=
  s.resetPin = false ∧ s.pc.toNat % 4 = 0 ∧ s.params.imBase ≤ s.pc.toNat ∧
    s.pc.toNat < s.params.imBase + s.params.imSize ∧
      ∃ b0 b1 b2 b3, s.rom.find? s.pc.toNat = some b0 ∧ s.rom.find? (s.pc.toNat + 1) = some b1 ∧
        s.rom.find? (s.pc.toNat + 2) = some b2 ∧ s.rom.find? (s.pc.toNat + 3) = some b3 ∧
          decodeBytes [b0, b1, b2, b3] = .instr i

/-! ### The invariant of the architectural state -/

/-- What every step keeps: the canonical form of both memories, no listed data byte outside the window, instruction
addresses multiples of 4 (rule R26), and `npc = pc + 4` outside a delay slot (rule R160). -/
structure State.Inv (s : State) : Prop where
  ramCanonical : s.ram.wf = true
  ramInside : ∀ c ∈ s.ram, s.params.dmBase ≤ c.1 ∧ c.1 < s.params.dmBase + s.params.dmSize
  romRising : s.rom.rising = true
  pcAligned : s.pc.toNat % 4 = 0
  npcAligned : s.npc.toNat % 4 = 0
  npcFollows : s.delaySlot = false → s.npc = s.pc + 4#32

/-! ### What the pipeline must deliver -/

/-- The value of register `r` after every instruction ahead of the one in D: the result of the youngest producer among E
and M, the load's being the one DM gives it when it is in M, else what the GRF holds after stage W's write
(rules R273, R278). -/
def PipeState.latest (p : PipeState) (r : Reg) : Word :=
  if p.prodE.matched r then muxWD p.frE.wdSel p.opE p.edge.dmQ p.frE.ext32 p.frE.pc8
  else if p.prodM.matched r then muxWD p.frM.wdSel p.frM.op p.dmQ p.frM.ext32 p.frM.pc8
  else readReg p.grfNext r

/-- While a multiplication or division is under way, E holds no instruction of the unit (rules R130, R280). -/
def PipeState.Interlocked (p : PipeState) : Prop := p.busy = true → p.frE.isMultDiv = false

/-- `k` clock cycles from `p`, none with a stop in M, lead to `q`. -/
def PipeState.runsTo (p : PipeState) : Nat → PipeState → Prop
  | 0, q => q = p
  | k + 1, q => ∃ p', p.stopM = none ∧ cycle p = .next p' ∧ p'.runsTo k q

/-! ### What a program shows (rules R35, R262) -/

/-- The register write that an event is, if it is one. -/
def Event.asRegWrite : Event → Option (Reg × Word)
  | .regWrite addr value => some (addr, value)
  | .memWrite _ _ _ => none

/-- The store that an event is, if it is one; the lanes that are not enabled are masked out (U8). -/
def Event.asStore : Event → Option (Word × BitVec 4 × Word)
  | .regWrite _ _ => none
  | .memWrite addr byteen wdata => some (addr, byteen, wdata &&& laneMask byteen)

/-- The register writes of a trace, in order, to register 0 too. -/
def regWrites (es : List Event) : List (Reg × Word) := es.filterMap Event.asRegWrite

/-- The stores of a trace, in order. -/
def stores (es : List Event) : List (Word × BitVec 4 × Word) := es.filterMap Event.asStore

end Sys2Proof.Machine
end

