-- ==== Sys2Proof/Certificates/Slice0/Obligations.lean ====
section
/-! DEFINITION. The statements for the provers. The terms are in `Sys2Proof/Safety.lean`; a witness for every statement with
hypotheses is in `Sys2Proof/Tests/Slice0.lean`. A statement marked with a log entry rests on a choice of the spec or of the
model, not on the document. Every clause about the fields of a word takes their bit positions, and the opcode 000000, from
rules R71, R72, which are choices of the spec (D1, D2; log 14). -/

open Sys2Proof Sys2Proof.Machine

/-- Every operand of every instruction survives encoding and decoding (rules R70 to R80). -/
def Obligations.DecodeInvertsEncode : Prop :=
  ∀ i : Instr, i.wellFormed = true →
    decodeWord (encode i) = .instr i ∧ decodeBytes (bytesOfWord (encode i)) = .instr i

/-- The decoder and the opcode table are the same map (rule R80, which the spec derives). -/
def Obligations.DecodeAgreesWithOpcodeTable : Prop :=
  ∀ w : Word,
    (∀ i, decodeWord w = .instr i →
      opcodeTable.filter (fun r => r.recognises w) =
        [{ mnemonic := i.mnemonic, mask := i.mask, bits := i.matchBits }]) ∧
    (∀ e, decodeWord w = .rejected e → opcodeTable.filter (fun r => r.recognises w) = [])

/-- Rule R78: the selection by `rt`, and the two `CompSel` values it prints. -/
def Obligations.RegimmSelectedByRt : Prop :=
  ∀ w : Word, fOpcode w = 0b000001#6 →
    (fRt w = 0b00000#5 → decodeWord w = .instr (.bltz (fRs w) (fImm w)) ∧
      (ctrlDecoder (fOpcode w) (fFunct w) (fRt w)).compSel = 0b000#3) ∧
    (fRt w = 0b00001#5 → decodeWord w = .instr (.bgez (fRs w) (fImm w)) ∧
      (ctrlDecoder (fOpcode w) (fFunct w) (fRt w)).compSel = 0b001#3) ∧
    (fRt w ≠ 0b00000#5 → fRt w ≠ 0b00001#5 → decodeWord w = .rejected (.regimmRt (fRt w)))

/-- A few of the encoding vectors; all of them are in the tests. -/
def Obligations.SpecWordsDecode : Prop :=
  decodeWord 0x00221820#32 = .instr (.add 1 2 3) ∧ decodeWord 0x21AEFFFF#32 = .instr (.addi 13 14 0xFFFF) ∧
    decodeWord 0x000327C2#32 = .instr (.srl 3 4 31) ∧ decodeWord 0x36538001#32 = .instr (.ori 18 19 0x8001) ∧
    decodeWord 0x00C7001A#32 = .instr (.div 6 7) ∧ decodeWord 0x00005010#32 = .instr (.mfhi 10) ∧
    decodeWord 0x3C01ABCD#32 = .instr (.lui 1 0xABCD) ∧ decodeWord 0x0441FFFF#32 = .instr (.bgez 2 0xFFFF) ∧
    decodeWord 0x00602809#32 = .instr (.jalr 3 5) ∧ decodeWord 0x0C001BFF#32 = .instr (.jal 0x1BFF) ∧
    decodeWord 0x952AFFFE#32 = .instr (.lhu 9 10 0xFFFE) ∧ decodeWord 0xADF08000#32 = .instr (.sw 15 16 0x8000)

/-- Rule R73, the part about recognising a word; the ignored fields are in the statements of the instructions. -/
def Obligations.RecognitionReadsOpcodeFunctRt : Prop :=
  ∀ (w w' : Word) (i : Instr), decodeWord w = .instr i → fOpcode w' = fOpcode w → fFunct w' = fFunct w →
    (fRt w' = fRt w ∨ (fOpcode w ≠ 0b000001#6 ∧ fOpcode w ≠ 0b000110#6 ∧ fOpcode w ≠ 0b000111#6)) →
      ∃ i', decodeWord w' = .instr i' ∧ i'.mnemonic = i.mnemonic

/-- The architectural step of rule R25: fetch, decode, execute. -/
def Obligations.StepRunsDecodedInstruction : Prop :=
  ∀ (s : State) (i : Instr), i.wellFormed = true → s.AtInstr i → step s = exec i s

/-- Only `pc` is stated by the document; every other value here is a choice named in log 1, 2, 3, 4, 9, 13. -/
def Obligations.ResetStateValues : Prop :=
  State.reset.pc = 0x00003000#32 ∧ State.reset.npc = 0x00003004#32 ∧ (∀ q, State.reset.x q = 0#32) ∧
    State.reset.hi = 0#32 ∧ State.reset.lo = 0#32 ∧ (∀ a, ramByte State.reset.ram a = 0#8) ∧
    State.reset.rom = [] ∧ State.reset.params = Params.default ∧ Params.default.wellFormed = true ∧
    State.reset.delaySlot = false ∧ State.reset.resetPin = false ∧ State.reset.events = [] ∧
    PipeState.reset.pc = 0x00003000#32 ∧ (∀ q, readReg PipeState.reset.gpr q = 0#32) ∧
    PipeState.reset.frD = .zero ∧ PipeState.reset.frE = .zero ∧ PipeState.reset.frM = .zero ∧
    PipeState.reset.frW = .zero ∧ PipeState.reset.mult = .zero

/-- Rules R215 ("Reset overrides everything"), R240, R241; the zeros are the choice of log 1. -/
def Obligations.ResetOverridesEverything : Prop :=
  ∀ s : State, s.resetPin = true →
    ∃ t, step s = .next t ∧ t.pc = 0x00003000#32 ∧ t.npc = 0x00003004#32 ∧ (∀ q, t.x q = 0#32) ∧ t.hi = 0#32 ∧
      t.lo = 0#32 ∧ t.delaySlot = false ∧ s.SameMemory t ∧ s.SameFixed t ∧ t.events = s.events

/-- Rule R21, on the operation every instruction writes a register with. -/
def Obligations.RegisterFile : Prop :=
  (∀ s : State, s.x 0#5 = 0#32) ∧ (∀ (s : State) (v : Word), s.setX 0#5 v = s) ∧
    (∀ (s : State) (r : Reg) (v : Word), r ≠ 0#5 →
      (s.setX r v).x r = v ∧ ∀ q, q ≠ r → (s.setX r v).x q = s.x q) ∧
    (∀ s t : State, (∀ r : Reg, r ≠ 0#5 → t.x r = s.x r) → t.gpr = s.gpr)

/-- Rule R81 under D10 (log 8). -/
def Obligations.UnrecognisedWordStops : Prop :=
  ∀ (s : State) (w : Word) (e : DecodeError), s.resetPin = false →
    fetchWord s.params s.rom s.pc = .word w → decodeWord w = .rejected e →
      (s.params.illegalAsNop = false → step s = .refused (.unrecognisedInstruction w)) ∧
      (s.params.illegalAsNop = true → ∃ t, step s = .next t ∧ s.Sequential t ∧ s.SameRegs t ∧ s.SameHiLo t ∧
        s.SameMemory t ∧ s.SameFixed t ∧ t.events = s.events)

/-- Checks (1) and (2) of rule R215 under D5, D7, D9 (log 5, 7, 26). -/
def Obligations.FetchStops : Prop :=
  ∀ s : State, s.resetPin = false →
    (s.pc.toNat < s.params.imBase ∨ s.params.imBase + s.params.imSize ≤ s.pc.toNat ∨ romWord s.rom s.pc = none →
      step s = .fault (.outsideInstructionMemory s.pc)) ∧
    (s.params.imBase ≤ s.pc.toNat → s.pc.toNat < s.params.imBase + s.params.imSize → romWord s.rom s.pc ≠ none →
      s.pc.toNat % 4 ≠ 0 → step s = .fault (.misalignedInstructionAddress s.pc))

/-- Rules R167, R186 under D11 (log 9). -/
def Obligations.TransferInDelaySlotRefused : Prop :=
  ∀ (i : Instr) (s : State), Instr.isControlTransfer i = true → s.delaySlot = true →
    exec i s = .refused .controlTransferInDelaySlot

/-- Checks (5) and (6) of rule R215 under D7, D8 (log 5, 6, 26). -/
def Obligations.IllegalDataAccessFaults : Prop :=
  ∀ (s : State) (rs rt : Reg) (imm : Imm16) (a : Word), a = s.effectiveAddress rs imm →
    (a.toNat % 2 ≠ 0 → ∀ i ∈ [Instr.lh rs rt imm, .lhu rs rt imm, .sh rs rt imm],
      exec i s = .fault (.misalignedDataAccess a)) ∧
    (a.toNat % 4 ≠ 0 → ∀ i ∈ [Instr.lw rs rt imm, .sw rs rt imm],
      exec i s = .fault (.misalignedDataAccess a)) ∧
    (a.toNat < s.params.dmBase ∨ s.params.dmBase + s.params.dmSize < a.toNat + 1 →
      ∀ i ∈ [Instr.lb rs rt imm, .lbu rs rt imm, .sb rs rt imm], exec i s = .fault (.outsideDataMemory a)) ∧
    (a.toNat % 2 = 0 → a.toNat < s.params.dmBase ∨ s.params.dmBase + s.params.dmSize < a.toNat + 2 →
      ∀ i ∈ [Instr.lh rs rt imm, .lhu rs rt imm, .sh rs rt imm], exec i s = .fault (.outsideDataMemory a)) ∧
    (a.toNat % 4 = 0 → a.toNat < s.params.dmBase ∨ s.params.dmBase + s.params.dmSize < a.toNat + 4 →
      ∀ i ∈ [Instr.lw rs rt imm, .sw rs rt imm], exec i s = .fault (.outsideDataMemory a))

/-- Check (5) of rule R215 for jr and jalr under D9 (log 7). -/
def Obligations.MisalignedJumpTargetFaults : Prop :=
  ∀ (s : State) (rs rd : Reg), s.delaySlot = false → (s.x rs).toNat % 4 ≠ 0 →
    exec (.jr rs) s = .fault (.misalignedInstructionAddress (s.x rs)) ∧
      exec (.jalr rs rd) s = .fault (.misalignedInstructionAddress (s.x rs))

/-- Rules R101, R102: no overflow exception, no flag, sources read before the destination is written. -/
def Obligations.AdditionResult : Prop :=
  (∀ (s : State) (rs rt rd : Reg),
    (∃ t, exec (.add rs rt rd) s = .next t ∧ s.OnlyWritesReg t rd (BitVec.ofNat 32 ((s.x rs).toNat + (s.x rt).toNat))) ∧
    (∃ t, exec (.addu rs rt rd) s = .next t ∧ s.OnlyWritesReg t rd (BitVec.ofNat 32 ((s.x rs).toNat + (s.x rt).toNat)))) ∧
    DecodesSpecial 0b100000#6 (fun w => .add (fRs w) (fRt w) (fRd w)) ∧
    DecodesSpecial 0b100001#6 (fun w => .addu (fRs w) (fRt w) (fRd w))

/-- Rules R103, R104. -/
def Obligations.SubtractionResult : Prop :=
  (∀ (s : State) (rs rt rd : Reg),
    (∃ t, exec (.sub rs rt rd) s = .next t ∧ s.OnlyWritesReg t rd (BitVec.ofInt 32 ((s.x rs).toInt - (s.x rt).toInt))) ∧
    (∃ t, exec (.subu rs rt rd) s = .next t ∧ s.OnlyWritesReg t rd (BitVec.ofInt 32 ((s.x rs).toInt - (s.x rt).toInt)))) ∧
    DecodesSpecial 0b100010#6 (fun w => .sub (fRs w) (fRt w) (fRd w)) ∧
    DecodesSpecial 0b100011#6 (fun w => .subu (fRs w) (fRt w) (fRd w))

/-- Rules R105, R106. -/
def Obligations.AddImmediateResult : Prop :=
  (∀ (s : State) (rs rt : Reg) (imm : Imm16),
    (∃ t, exec (.addi rs rt imm) s = .next t ∧ s.OnlyWritesReg t rt (BitVec.ofInt 32 ((s.x rs).toInt + imm.toInt))) ∧
    (∃ t, exec (.addiu rs rt imm) s = .next t ∧ s.OnlyWritesReg t rt (BitVec.ofInt 32 ((s.x rs).toInt + imm.toInt)))) ∧
    DecodesPrimary 0b001000#6 (fun w => .addi (fRs w) (fRt w) (fImm w)) ∧
    DecodesPrimary 0b001001#6 (fun w => .addiu (fRs w) (fRt w) (fImm w))

/-- Rule R100. -/
def Obligations.IdenticalPairs : Prop :=
  (∀ (s : State) (rs rt rd : Reg) (imm : Imm16),
    exec (.add rs rt rd) s = exec (.addu rs rt rd) s ∧ exec (.sub rs rt rd) s = exec (.subu rs rt rd) s ∧
    exec (.addi rs rt imm) s = exec (.addiu rs rt imm) s ∧
    (∃ t, exec (.addu rs rt rd) s = .next t ∧
      s.WritesReg t rd (BitVec.ofInt 32 ((s.x rs).toInt + (s.x rt).toInt))) ∧
    (∃ t, exec (.subu rs rt rd) s = .next t ∧
      s.WritesReg t rd (BitVec.ofInt 32 ((s.x rs).toInt - (s.x rt).toInt))) ∧
    (∃ t, exec (.addiu rs rt imm) s = .next t ∧
      s.WritesReg t rt (BitVec.ofInt 32 ((s.x rs).toInt + imm.toInt)))) ∧
  (∀ (rs rt rd : Reg) (imm : Imm16),
    encode (.add rs rt rd) ^^^ encode (.addu rs rt rd) = 0b100000#32 ^^^ 0b100001#32 ∧
    encode (.sub rs rt rd) ^^^ encode (.subu rs rt rd) = 0b100010#32 ^^^ 0b100011#32 ∧
    fFunct (encode (.add rs rt rd)) = 0b100000#6 ∧ fFunct (encode (.sub rs rt rd)) = 0b100010#6 ∧
    fOpcode (encode (.addi rs rt imm)) = 0b001000#6 ∧ fOpcode (encode (.addiu rs rt imm)) = 0b001001#6 ∧
    (encode (.addi rs rt imm)).extractLsb' 0 26 = (encode (.addiu rs rt imm)).extractLsb' 0 26)

/-- Rules R110 to R113. -/
def Obligations.BitwiseLogicResults : Prop :=
  (∀ (s : State) (rs rt rd : Reg),
    (∃ t v, exec (.and rs rt rd) s = .next t ∧ s.OnlyWritesReg t rd v ∧
      ∀ i, i < 32 → v.getLsbD i = ((s.x rs).getLsbD i && (s.x rt).getLsbD i)) ∧
    (∃ t v, exec (.or rs rt rd) s = .next t ∧ s.OnlyWritesReg t rd v ∧
      ∀ i, i < 32 → v.getLsbD i = ((s.x rs).getLsbD i || (s.x rt).getLsbD i)) ∧
    (∃ t v, exec (.xor rs rt rd) s = .next t ∧ s.OnlyWritesReg t rd v ∧
      ∀ i, i < 32 → v.getLsbD i = ((s.x rs).getLsbD i != (s.x rt).getLsbD i)) ∧
    (∃ t v, exec (.nor rs rt rd) s = .next t ∧ s.OnlyWritesReg t rd v ∧
      ∀ i, i < 32 → v.getLsbD i = !((s.x rs).getLsbD i || (s.x rt).getLsbD i))) ∧
    DecodesSpecial 0b100100#6 (fun w => .and (fRs w) (fRt w) (fRd w)) ∧
    DecodesSpecial 0b100101#6 (fun w => .or (fRs w) (fRt w) (fRd w)) ∧
    DecodesSpecial 0b100110#6 (fun w => .xor (fRs w) (fRt w) (fRd w)) ∧
    DecodesSpecial 0b100111#6 (fun w => .nor (fRs w) (fRt w) (fRd w))

/-- Rules R121 to R123. -/
def Obligations.ImmediateLogicResults : Prop :=
  (∀ (s : State) (rs rt : Reg) (imm : Imm16),
    (∃ t v, exec (.andi rs rt imm) s = .next t ∧ s.OnlyWritesReg t rt v ∧
      ∀ i, i < 32 → v.getLsbD i = ((s.x rs).getLsbD i && (decide (i < 16) && imm.getLsbD i))) ∧
    (∃ t v, exec (.ori rs rt imm) s = .next t ∧ s.OnlyWritesReg t rt v ∧
      ∀ i, i < 32 → v.getLsbD i = ((s.x rs).getLsbD i || (decide (i < 16) && imm.getLsbD i))) ∧
    (∃ t v, exec (.xori rs rt imm) s = .next t ∧ s.OnlyWritesReg t rt v ∧
      ∀ i, i < 32 → v.getLsbD i = ((s.x rs).getLsbD i != (decide (i < 16) && imm.getLsbD i)))) ∧
    DecodesPrimary 0b001100#6 (fun w => .andi (fRs w) (fRt w) (fImm w)) ∧
    DecodesPrimary 0b001101#6 (fun w => .ori (fRs w) (fRt w) (fImm w)) ∧
    DecodesPrimary 0b001110#6 (fun w => .xori (fRs w) (fRt w) (fImm w))

/-- Rules R114 to R116. -/
def Obligations.ConstantShiftResults : Prop :=
  (∀ (s : State) (rt rd : Reg) (shamt : Shamt),
    (∃ t v, exec (.sll rt rd shamt) s = .next t ∧ s.OnlyWritesReg t rd v ∧
      ∀ i, i < 32 → v.getLsbD i = (decide (shamt.toNat ≤ i) && (s.x rt).getLsbD (i - shamt.toNat))) ∧
    (∃ t v, exec (.srl rt rd shamt) s = .next t ∧ s.OnlyWritesReg t rd v ∧
      ∀ i, i < 32 → v.getLsbD i = (decide (i + shamt.toNat < 32) && (s.x rt).getLsbD (i + shamt.toNat))) ∧
    (∃ t v, exec (.sra rt rd shamt) s = .next t ∧ s.OnlyWritesReg t rd v ∧
      (∀ i, i < 32 → v.getLsbD i = (if i + shamt.toNat < 32 then (s.x rt).getLsbD (i + shamt.toNat) else (s.x rt).getLsbD 31)) ∧
      v.toInt = (s.x rt).toInt / 2 ^ shamt.toNat) ∧
    (∀ w : Word, decodeWord w = .instr (.sll rt rd shamt) →
      (ctrlDecoder (fOpcode w) (fFunct w) (fRt w)).tuseRs = 1#2)) ∧
    DecodesSpecial 0b000000#6 (fun w => .sll (fRt w) (fRd w) (fShamt w)) ∧
    DecodesSpecial 0b000010#6 (fun w => .srl (fRt w) (fRd w) (fShamt w)) ∧
    DecodesSpecial 0b000011#6 (fun w => .sra (fRt w) (fRd w) (fShamt w))

/-- Rules R117 to R120. -/
def Obligations.VariableShiftResults : Prop :=
  (∀ (s : State) (rs rt rd : Reg),
    (∃ t v, exec (.sllv rs rt rd) s = .next t ∧ s.OnlyWritesReg t rd v ∧
      ∀ i, i < 32 → v.getLsbD i = (decide (((s.x rs).toNat % 32) ≤ i) && (s.x rt).getLsbD (i - ((s.x rs).toNat % 32)))) ∧
    (∃ t v, exec (.srlv rs rt rd) s = .next t ∧ s.OnlyWritesReg t rd v ∧
      ∀ i, i < 32 → v.getLsbD i = (decide (i + ((s.x rs).toNat % 32) < 32) && (s.x rt).getLsbD (i + ((s.x rs).toNat % 32)))) ∧
    (∃ t v, exec (.srav rs rt rd) s = .next t ∧ s.OnlyWritesReg t rd v ∧
      ∀ i, i < 32 → v.getLsbD i = (if i + ((s.x rs).toNat % 32) < 32 then (s.x rt).getLsbD (i + ((s.x rs).toNat % 32)) else (s.x rt).getLsbD 31))) ∧
    DecodesSpecial 0b000100#6 (fun w => .sllv (fRs w) (fRt w) (fRd w)) ∧
    DecodesSpecial 0b000110#6 (fun w => .srlv (fRs w) (fRt w) (fRd w)) ∧
    DecodesSpecial 0b000111#6 (fun w => .srav (fRs w) (fRt w) (fRd w))

/-- Rules R150, R151. -/
def Obligations.SetLessThanResults : Prop :=
  (∀ (s : State) (rs rt rd : Reg),
    (∃ t, exec (.slt rs rt rd) s = .next t ∧ s.OnlyWritesReg t rd (if (s.x rs).toInt < (s.x rt).toInt then 1#32 else 0#32)) ∧
    (∃ t, exec (.sltu rs rt rd) s = .next t ∧ s.OnlyWritesReg t rd (if (s.x rs).toNat < (s.x rt).toNat then 1#32 else 0#32))) ∧
    DecodesSpecial 0b101010#6 (fun w => .slt (fRs w) (fRt w) (fRd w)) ∧
    DecodesSpecial 0b101011#6 (fun w => .sltu (fRs w) (fRt w) (fRd w))

/-- Rules R152, R153. -/
def Obligations.SetLessThanImmediateResults : Prop :=
  (∀ (s : State) (rs rt : Reg) (imm : Imm16),
    (∃ t, exec (.slti rs rt imm) s = .next t ∧ s.OnlyWritesReg t rt (if (s.x rs).toInt < imm.toInt then 1#32 else 0#32)) ∧
    (∃ t, exec (.sltiu rs rt imm) s = .next t ∧ s.OnlyWritesReg t rt (if ((s.x rs).toNat : Int) < imm.toInt % 2 ^ 32 then 1#32 else 0#32))) ∧
    DecodesPrimary 0b001010#6 (fun w => .slti (fRs w) (fRt w) (fImm w)) ∧
    DecodesPrimary 0b001011#6 (fun w => .sltiu (fRs w) (fRt w) (fImm w))

/-- Rule R154. -/
def Obligations.LoadUpperResult : Prop :=
  (∀ (s : State) (rt : Reg) (imm : Imm16),
    (∃ t, exec (.lui rt imm) s = .next t ∧ s.OnlyWritesReg t rt (BitVec.ofNat 32 (imm.toNat * 2 ^ 16)))) ∧
    DecodesPrimary 0b001111#6 (fun w => .lui (fRt w) (fImm w)) ∧
    (∀ w : Word, fOpcode w = 0b001111#6 →
      (ctrlDecoder (fOpcode w) (fFunct w) (fRt w)).extSel = 0b10#2 ∧
      (ctrlDecoder (fOpcode w) (fFunct w) (fRt w)).wdSel = 0b10#2 ∧
      (ctrlDecoder (fOpcode w) (fFunct w) (fRt w)).tuseRs = 0b11#2 ∧
      (ctrlDecoder (fOpcode w) (fFunct w) (fRt w)).tuseRt = 0b11#2 ∧
      extModule 0b10#2 (fImm w) = BitVec.ofNat 32 ((fImm w).toNat * 2 ^ 16)) ∧
    tnew .E 0b10#2 = 0

/-- Rules R131, R132. -/
def Obligations.MultiplicationResults : Prop :=
  (∀ (s : State) (rs rt : Reg),
    (∃ t, exec (.mult rs rt) s = .next t ∧ s.OnlyWritesHiLo t t.hi t.lo ∧
      (t.hi ++ t.lo).toInt = (s.x rs).toInt * (s.x rt).toInt) ∧
    (∃ t, exec (.multu rs rt) s = .next t ∧ s.OnlyWritesHiLo t t.hi t.lo ∧
      t.hi.toNat * 2 ^ 32 + t.lo.toNat = (s.x rs).toNat * (s.x rt).toNat)) ∧
    DecodesSpecial 0b011000#6 (fun w => .mult (fRs w) (fRt w)) ∧
    DecodesSpecial 0b011001#6 (fun w => .multu (fRs w) (fRt w))

/-- Rule R133; the rounding of negative operands rests on D12 (log 11). -/
def Obligations.SignedDivisionResult : Prop :=
  (∀ (s : State) (rs rt : Reg), s.x rt ≠ 0#32 → ¬(s.x rs = 0x80000000#32 ∧ s.x rt = 0xFFFFFFFF#32) →
    ∃ t, exec (.div rs rt) s = .next t ∧ s.OnlyWritesHiLo t t.hi t.lo ∧
      (s.x rs).toInt = t.lo.toInt * (s.x rt).toInt + t.hi.toInt ∧
      t.hi.toInt.natAbs < (s.x rt).toInt.natAbs ∧
      (t.hi.toInt ≠ 0 → (t.hi.toInt < 0 ↔ (s.x rs).toInt < 0))) ∧
    DecodesSpecial 0b011010#6 (fun w => .div (fRs w) (fRt w))

/-- Rule R134; the divisor 0 is in `DivisionCornersComplete`. -/
def Obligations.UnsignedDivisionResult : Prop :=
  (∀ (s : State) (rs rt : Reg), s.x rt ≠ 0#32 →
    ∃ t, exec (.divu rs rt) s = .next t ∧ s.OnlyWritesHiLo t t.hi t.lo ∧
      (s.x rs).toNat = t.lo.toNat * (s.x rt).toNat + t.hi.toNat ∧ t.hi.toNat < (s.x rt).toNat) ∧
    DecodesSpecial 0b011011#6 (fun w => .divu (fRs w) (fRt w))

/-- Rules R140, R212 under D13, D14 (log 10); nothing is said about the values. -/
def Obligations.DivisionCornersComplete : Prop :=
  ∀ (s : State) (rs rt : Reg),
    (s.x rt = 0#32 → ∃ t, exec (.div rs rt) s = .next t ∧
      s.OnlyWritesHiLo t (Config.divCorner .div (s.x rs) (s.x rt)).1 (Config.divCorner .div (s.x rs) (s.x rt)).2) ∧
    (s.x rs = 0x80000000#32 → s.x rt = 0xFFFFFFFF#32 → ∃ t, exec (.div rs rt) s = .next t ∧
      s.OnlyWritesHiLo t (Config.divCorner .div (s.x rs) (s.x rt)).1 (Config.divCorner .div (s.x rs) (s.x rt)).2) ∧
    (s.x rt = 0#32 → ∃ t, exec (.divu rs rt) s = .next t ∧
      s.OnlyWritesHiLo t (Config.divCorner .divu (s.x rs) (s.x rt)).1 (Config.divCorner .divu (s.x rs) (s.x rt)).2)

/-- Rules R135, R137. -/
def Obligations.MoveFromHiLoResults : Prop :=
  (∀ (s : State) (rd : Reg),
    (∃ t, exec (.mfhi rd) s = .next t ∧ s.OnlyWritesReg t rd (s.hi)) ∧
    (∃ t, exec (.mflo rd) s = .next t ∧ s.OnlyWritesReg t rd (s.lo))) ∧
    DecodesSpecial 0b010000#6 (fun w => .mfhi (fRd w)) ∧
    DecodesSpecial 0b010010#6 (fun w => .mflo (fRd w))

/-- Rules R136, R138, without their sentences on cycles. -/
def Obligations.MoveToHiLoResults : Prop :=
  (∀ (s : State) (rs : Reg),
    (∃ t, exec (.mthi rs) s = .next t ∧ s.OnlyWritesHiLo t (s.x rs) s.lo) ∧
    (∃ t, exec (.mtlo rs) s = .next t ∧ s.OnlyWritesHiLo t s.hi (s.x rs))) ∧
    DecodesSpecial 0b010001#6 (fun w => .mthi (fRs w)) ∧
    DecodesSpecial 0b010011#6 (fun w => .mtlo (fRs w))

/-- Rules R161, R162, R165, R166, with the common behaviour of rule R160. -/
def Obligations.CompareWithZeroBranches : Prop :=
  (∀ (s : State) (rs : Reg) (imm : Imm16), s.delaySlot = false →
    (∃ t, exec (.bltz rs imm) s = .next t ∧
      s.OnlyTransfers t (if (s.x rs).toInt < 0 then BitVec.ofInt 32 (s.npc.toNat + 4 * imm.toInt) else s.npc + 4#32)) ∧
    (∃ t, exec (.bgez rs imm) s = .next t ∧
      s.OnlyTransfers t (if (s.x rs).toInt ≥ 0 then BitVec.ofInt 32 (s.npc.toNat + 4 * imm.toInt) else s.npc + 4#32)) ∧
    (∃ t, exec (.blez rs imm) s = .next t ∧
      s.OnlyTransfers t (if (s.x rs).toInt ≤ 0 then BitVec.ofInt 32 (s.npc.toNat + 4 * imm.toInt) else s.npc + 4#32)) ∧
    (∃ t, exec (.bgtz rs imm) s = .next t ∧
      s.OnlyTransfers t (if (s.x rs).toInt > 0 then BitVec.ofInt 32 (s.npc.toNat + 4 * imm.toInt) else s.npc + 4#32))) ∧
    DecodesWithRt 0b000001#6 0b00000#5 (fun w => .bltz (fRs w) (fImm w)) ∧
    DecodesWithRt 0b000001#6 0b00001#5 (fun w => .bgez (fRs w) (fImm w)) ∧
    DecodesWithRt 0b000110#6 0b00000#5 (fun w => .blez (fRs w) (fImm w)) ∧
    DecodesWithRt 0b000111#6 0b00000#5 (fun w => .bgtz (fRs w) (fImm w))

/-- Rules R163, R164, with the common behaviour of rule R160. -/
def Obligations.CompareTwoBranches : Prop :=
  (∀ (s : State) (rs rt : Reg) (imm : Imm16), s.delaySlot = false →
    (∃ t, exec (.beq rs rt imm) s = .next t ∧
      s.OnlyTransfers t (if s.x rs = s.x rt then BitVec.ofInt 32 (s.npc.toNat + 4 * imm.toInt) else s.npc + 4#32)) ∧
    (∃ t, exec (.bne rs rt imm) s = .next t ∧
      s.OnlyTransfers t (if s.x rs ≠ s.x rt then BitVec.ofInt 32 (s.npc.toNat + 4 * imm.toInt) else s.npc + 4#32))) ∧
    DecodesPrimary 0b000100#6 (fun w => .beq (fRs w) (fRt w) (fImm w)) ∧
    DecodesPrimary 0b000101#6 (fun w => .bne (fRs w) (fRt w) (fImm w))

/-- Rules R183, R184. -/
def Obligations.JumpAndLinkResults : Prop :=
  (∀ (s : State) (index : Index26), s.delaySlot = false →
    (∃ t, exec (.j index) s = .next t ∧ s.OnlyTransfers t (BitVec.ofNat 32 (s.npc.toNat / 2 ^ 28 * 2 ^ 28 + 4 * index.toNat))) ∧
    (∃ t, exec (.jal index) s = .next t ∧ s.OnlyLinks t 31#5 (BitVec.ofNat 32 (s.npc.toNat / 2 ^ 28 * 2 ^ 28 + 4 * index.toNat))) ∧
    instrClass (.j index) = none ∧ tuseRsOf (instrClass (.jal index)) = 3#2 ∧
    tuseRtOf (instrClass (.jal index)) = 3#2) ∧
    DecodesPrimary 0b000010#6 (fun w => .j (fIndex w)) ∧
    DecodesPrimary 0b000011#6 (fun w => .jal (fIndex w))

/-- Rule R181; when it completes rests on D9, D11 (log 7, 9). -/
def Obligations.JumpRegisterResult : Prop :=
  (∀ (s : State) (rs : Reg), s.delaySlot = false → (s.x rs).toNat % 4 = 0 →
    ∃ t, exec (.jr rs) s = .next t ∧ s.OnlyTransfers t (s.x rs)) ∧
    DecodesSpecial 0b001000#6 (fun w => .jr (fRs w))

/-- Rule R182; the old value of `rs` is D15 (log 22), when it completes D9, D11 (log 7, 9). -/
def Obligations.JumpAndLinkRegisterResult : Prop :=
  (∀ (s : State) (rs rd : Reg), s.delaySlot = false → (s.x rs).toNat % 4 = 0 →
    ∃ t, exec (.jalr rs rd) s = .next t ∧ s.OnlyLinks t rd (s.x rs)) ∧
    DecodesSpecial 0b001001#6 (fun w => .jalr (fRs w) (fRd w))

/-- Rule R190, except that the base register is unchanged, which the statements of the loads and stores say. -/
def Obligations.EffectiveAddress : Prop :=
  (∀ (s : State) (rs : Reg) (imm : Imm16),
    s.effectiveAddress rs imm = BitVec.ofInt 32 ((s.x rs).toNat + imm.toInt)) ∧
  (∀ (s : State) (w : Word) (i : Instr), decodeWord w = .instr i →
    (instrClass i = some .load ∨ instrClass i = some .store) →
      (ctrlDecoder (fOpcode w) (fFunct w) (fRt w)).opSel = 0b00#2 ∧
      (ctrlDecoder (fOpcode w) (fFunct w) (fRt w)).funcSel = 0b00#2 ∧
      (ctrlDecoder (fOpcode w) (fFunct w) (fRt w)).extSel = 0b00#2 ∧
      (ctrlDecoder (fOpcode w) (fFunct w) (fRt w)).aluBSel = true ∧
      aluModule 0b00#2 0b00#2 (ctrlDecoder (fOpcode w) (fFunct w) (fRt w)).shiftByReg (s.x (fRs w))
        (extModule 0b00#2 (fImm w)) (fShamt w) = s.effectiveAddress (fRs w) (fImm w))

/-- Rules R191, R194; when they complete rests on D7 (log 5). -/
def Obligations.LoadByteResults : Prop :=
  (∀ (s : State) (rs rt : Reg) (imm : Imm16), s.DataLegal (s.effectiveAddress rs imm) 1 →
    (∃ t, exec (.lb rs rt imm) s = .next t ∧ s.OnlyWritesReg t rt (BitVec.ofInt 32 (ramByte s.ram (s.effectiveAddress rs imm).toNat).toInt)) ∧
    (∃ t, exec (.lbu rs rt imm) s = .next t ∧ s.OnlyWritesReg t rt (BitVec.ofNat 32 (ramByte s.ram (s.effectiveAddress rs imm).toNat).toNat))) ∧
    DecodesPrimary 0b100000#6 (fun w => .lb (fRs w) (fRt w) (fImm w)) ∧
    DecodesPrimary 0b100100#6 (fun w => .lbu (fRs w) (fRt w) (fImm w))

/-- Rules R192, R195 with C3; when they complete rests on D7, D8 (log 5, 6). -/
def Obligations.LoadHalfResults : Prop :=
  (∀ (s : State) (rs rt : Reg) (imm : Imm16), s.DataLegal (s.effectiveAddress rs imm) 2 →
    (∃ t, exec (.lh rs rt imm) s = .next t ∧ s.OnlyWritesReg t rt (BitVec.ofInt 32 (ramByte s.ram ((s.effectiveAddress rs imm).toNat + 1) ++ ramByte s.ram (s.effectiveAddress rs imm).toNat).toInt)) ∧
    (∃ t, exec (.lhu rs rt imm) s = .next t ∧ s.OnlyWritesReg t rt (BitVec.ofNat 32 (ramByte s.ram ((s.effectiveAddress rs imm).toNat + 1) ++ ramByte s.ram (s.effectiveAddress rs imm).toNat).toNat))) ∧
    DecodesPrimary 0b100001#6 (fun w => .lh (fRs w) (fRt w) (fImm w)) ∧
    DecodesPrimary 0b100101#6 (fun w => .lhu (fRs w) (fRt w) (fImm w))

/-- Rule R193; when it completes rests on D7, D8 (log 5, 6). -/
def Obligations.LoadWordResult : Prop :=
  (∀ (s : State) (rs rt : Reg) (imm : Imm16), s.DataLegal (s.effectiveAddress rs imm) 4 →
    (∃ t, exec (.lw rs rt imm) s = .next t ∧ s.OnlyWritesReg t rt (ramByte s.ram ((s.effectiveAddress rs imm).toNat + 3) ++ ramByte s.ram ((s.effectiveAddress rs imm).toNat + 2) ++ ramByte s.ram ((s.effectiveAddress rs imm).toNat + 1) ++ ramByte s.ram (s.effectiveAddress rs imm).toNat))) ∧
    DecodesPrimary 0b100011#6 (fun w => .lw (fRs w) (fRt w) (fImm w))

/-- Rules R196 to R198, R47, R49; when they complete rests on D7, D8 (log 5, 6). The canonical form is kept by every step (`StepKeepsInvariant`). -/
def Obligations.StoreResults : Prop :=
  (∀ (s : State) (rs rt : Reg) (imm : Imm16), s.ram.wf = true →
    (s.DataLegal (s.effectiveAddress rs imm) 1 → ∃ t, exec (.sb rs rt imm) s = .next t ∧
      s.OnlyStores t (s.effectiveAddress rs imm) 1 (s.x rt)) ∧
    (s.DataLegal (s.effectiveAddress rs imm) 2 → ∃ t, exec (.sh rs rt imm) s = .next t ∧
      s.OnlyStores t (s.effectiveAddress rs imm) 2 (s.x rt)) ∧
    (s.DataLegal (s.effectiveAddress rs imm) 4 → ∃ t, exec (.sw rs rt imm) s = .next t ∧
      s.OnlyStores t (s.effectiveAddress rs imm) 4 (s.x rt))) ∧
    DecodesPrimary 0b101000#6 (fun w => .sb (fRs w) (fRt w) (fImm w)) ∧
    DecodesPrimary 0b101001#6 (fun w => .sh (fRs w) (fRt w) (fImm w)) ∧
    DecodesPrimary 0b101011#6 (fun w => .sw (fRs w) (fRt w) (fImm w))

/-- Rule R48, which the spec derives. -/
def Obligations.MixedWidthAccess : Prop :=
  ∀ (s : State) (a : Word), s.ram.wf = true → a.toNat % 4 = 0 →
    (∀ (v : Word) (k : Nat), k < 4 →
      (s.memWrite a 4 v).memRead (a + BitVec.ofNat 32 k) 1 = v.extractLsb' (8 * k) 8) ∧
    (∀ (v : Word) (h : Nat), h < 2 →
      (s.memWrite a 4 v).memRead (a + BitVec.ofNat 32 (2 * h)) 2 = v.extractLsb' (16 * h) 16) ∧
    (∀ b0 b1 b2 b3 : Byte,
      ((((s.memWrite a 1 b0).memWrite (a + 1#32) 1 b1).memWrite (a + 2#32) 1 b2).memWrite (a + 3#32) 1 b3).memRead a 4 =
        b3 ++ b2 ++ b1 ++ b0) ∧
    (∀ h0 h1 : BitVec 16, ((s.memWrite a 2 h0).memWrite (a + 2#32) 2 h1).memRead a 4 = h1 ++ h0)

/-- Rule R55, for two instructions in a row. -/
def Obligations.LoadAfterStore : Prop :=
  ∀ (s : State) (rs rt base dst : Reg) (imm offset : Imm16), s.ram.wf = true →
    s.effectiveAddress base offset = s.effectiveAddress rs imm →
      (s.DataLegal (s.effectiveAddress rs imm) 1 → ∃ t u, exec (.sb rs rt imm) s = .next t ∧ exec (.lbu base dst offset) t = .next u ∧
        u.x dst = if dst = 0#5 then 0#32 else (s.x rt) &&& 0x000000FF#32) ∧
      (s.DataLegal (s.effectiveAddress rs imm) 2 → ∃ t u, exec (.sh rs rt imm) s = .next t ∧ exec (.lhu base dst offset) t = .next u ∧
        u.x dst = if dst = 0#5 then 0#32 else (s.x rt) &&& 0x0000FFFF#32) ∧
      (s.DataLegal (s.effectiveAddress rs imm) 4 → ∃ t u, exec (.sw rs rt imm) s = .next t ∧ exec (.lw base dst offset) t = .next u ∧
        u.x dst = if dst = 0#5 then 0#32 else s.x rt)

/-- Rule R26 (`pc` stays a multiple of 4) and rule R160 (`npc = pc + 4` outside a delay slot), with the form of the memories. -/
def Obligations.StepKeepsInvariant : Prop :=
  ∀ s t : State, s.Inv → step s = .next t → t.Inv

/-- The invariant holds at reset; with `StepKeepsInvariant` it holds in every reachable state. -/
def Obligations.ResetHasInvariant : Prop :=
  State.reset.Inv

/-- Rule R27: "No other instruction reads or writes them." -/
def Obligations.HiLoWritersAndReaders : Prop :=
  ∀ (i : Instr) (s t : State), exec i s = .next t →
    (Instr.writesHi i = false → t.hi = s.hi) ∧ (Instr.writesLo i = false → t.lo = s.lo) ∧
    ((∀ rd, i ≠ .mfhi rd) → (∀ rd, i ≠ .mflo rd) → ∀ h l : Word,
      ∃ t', exec i { s with hi := h, lo := l } = .next t' ∧ t' = { t with hi := t'.hi, lo := t'.lo } ∧
        t'.hi = (if Instr.writesHi i then t.hi else h) ∧ t'.lo = if Instr.writesLo i then t.lo else l)

/-- Rules R41, R42, R58, R34. -/
def Obligations.OnlyStoresChangeMemory : Prop :=
  (∀ (i : Instr) (s t : State), exec i s = .next t → instrClass i ≠ some .store → t.ram = s.ram) ∧
    (∀ s t : State, step s = .next t → s.SameFixed t)

/-- The "writes" column of rule R22, rule R23. -/
def Obligations.RegisterWritesAreTheDestination : Prop :=
  (∀ (i : Instr) (s t : State), exec i s = .next t →
    (∀ r, Instr.dest i = some r → ∃ v, s.WritesReg t r v) ∧
    (Instr.dest i = none → s.SameRegs t ∧
      (t.events = s.events ∨ ∃ a be d, t.events = s.events ++ [.memWrite a be d]))) ∧
  (∀ (w : Word) (i : Instr), decodeWord w = .instr i →
    (ctrlDecoder (fOpcode w) (fFunct w) (fRt w)).grfWE = (Instr.dest i).isSome)

/-- The "reads" column of rule R22. -/
def Obligations.ResultsDependOnReadRegisters : Prop :=
  ∀ (i : Instr) (s : State) (g : Regs), (∀ r ∈ Instr.reads i, readReg g r = s.x r) →
    (∀ t, exec i s = .next t → ∃ t', exec i { s with gpr := g } = .next t' ∧ t' = { t with gpr := t'.gpr } ∧
      ∀ q, t'.x q = if Instr.dest i = some q then t.x q else readReg g q) ∧
    (∀ f, exec i s = .fault f → exec i { s with gpr := g } = .fault f) ∧
    (∀ r, exec i s = .refused r → exec i { s with gpr := g } = .refused r)

/-- Rule R260: the delay-slot instruction always executes, taken or not, before control reaches the target. -/
def Obligations.DelaySlotExecutesOnce : Prop :=
  ∀ (s t u : State) (i j : Instr), s.AtInstr i → Instr.isControlTransfer i = true → exec i s = .next t →
    t.AtInstr j → Instr.isControlTransfer j = false → exec j t = .next u →
      step s = .next t ∧ t.pc = s.npc ∧ step t = .next u ∧ u.pc = t.npc ∧ u.npc = t.npc + 4#32 ∧ u.delaySlot = false

/-- Rule R25, which the spec derives. -/
def Obligations.SequencingOfEveryInstruction : Prop :=
  ∀ (i : Instr) (s t : State), exec i s = .next t →
    t.pc = s.npc ∧ t.delaySlot = Instr.isControlTransfer i ∧
      (Instr.isControlTransfer i = false → t.npc = s.npc + 4#32)

/-- Rules R275, R280 with the numbers of rule R271: the table of rule R274 stalls exactly when it must. -/
def Obligations.StallExactlyWhenTooEarly : Prop :=
  ∀ p : PipeState, p.stall = true ↔
    ((p.prodE.matched (fRs p.wordD) = true ∧ p.ctrlD.tuseRs.toNat < (if p.frE.wdSel = 0b00#2 then 1 else if p.frE.wdSel = 0b01#2 then 2 else 0)) ∨
      (p.prodE.matched (fRs p.wordD) = false ∧ p.prodM.matched (fRs p.wordD) = true ∧ p.ctrlD.tuseRs.toNat < if p.frM.wdSel = 0b01#2 then 1 else 0)) ∨
    ((p.prodE.matched (fRt p.wordD) = true ∧ p.ctrlD.tuseRt.toNat < (if p.frE.wdSel = 0b00#2 then 1 else if p.frE.wdSel = 0b01#2 then 2 else 0)) ∨
      (p.prodE.matched (fRt p.wordD) = false ∧ p.prodM.matched (fRt p.wordD) = true ∧ p.ctrlD.tuseRt.toNat < if p.frM.wdSel = 0b01#2 then 1 else 0)) ∨
    (p.ctrlD.isMultDiv = true ∧ (p.start = true ∨ p.busy = true))

/-- Rules R281, R306. -/
def Obligations.StallHoldsAndClears : Prop :=
  ∀ p : PipeState,
    (p.resetPin = true → ∃ q, cycle p = .next q ∧ q.pc = 0x00003000#32) ∧
    (p.resetPin = false → p.pipeStop = none → ∃ q, cycle p = .next q ∧
      (p.stall = true → q.pc = p.pc ∧ q.frD = p.frD ∧ q.frE = FRE.zero ∧ q.frE.dmWE = false ∧ q.frE.grfWE = false ∧
        q.start = false) ∧
      (p.stall = false → q.pc = p.npcD ∧ q.frD = { instr := p.instrF, instrAddr := p.pc, live := true } ∧ q.frE = p.freFromD) ∧
      q.frM = { dmWE := p.frE.dmWE, grfWE := p.frE.grfWE, dmSel := p.frE.dmSel, wdSel := p.frE.wdSel, v2 := p.v2E,
                op := p.opE, a3 := p.frE.a3, ext32 := p.frE.ext32, pc8 := p.frE.pc8, fmuxDM := p.frE.fmuxDM,
                live := p.frE.live } ∧
      q.frW = { grfWE := p.frM.grfWE, wdSel := p.frM.wdSel, op := p.frM.op, dmQ := p.dmQ, a3 := p.frM.a3,
                ext32 := p.frM.ext32, pc8 := p.frM.pc8, live := p.frM.live })

/-- Rules R273 to R278, R282: which data each forward carries, and why it is right. -/
def Obligations.ForwardingDeliversLatest : Prop :=
  ∀ p : PipeState, p.stall = false →
    (p.ctrlD.tuseRs = 0#2 → p.v1D = p.latest (fRs p.wordD)) ∧
    (p.ctrlD.tuseRs = 1#2 → p.edge.v1E = p.latest (fRs p.wordD)) ∧
    (p.ctrlD.tuseRt = 0#2 → p.v2D = p.latest (fRt p.wordD)) ∧
    (p.ctrlD.tuseRt = 1#2 → p.edge.v2E = p.latest (fRt p.wordD)) ∧
    (p.ctrlD.tuseRt = 2#2 → p.edge.edge.dmD = p.latest (fRt p.wordD))

/-- The table of rule R279. -/
def Obligations.StallChangeTable : Prop :=
  ∀ p q : PipeState, p.resetPin = false → p.stopM = none → cycle p = .next q →
    (p.entryRs = .S1 → q.entryRs = .F21) ∧ (p.entryRs = .S2 → q.entryRs = .S3) ∧
    (p.entryRs = .S3 → q.entryRs = .F1) ∧ (p.entryRs = .S4 → q.entryRs = .F32) ∧
    (p.entryRt = .S1 → q.entryRt = .F21) ∧ (p.entryRt = .S2 → q.entryRt = .S3) ∧
    (p.entryRt = .S3 → q.entryRt = .F1) ∧ (p.entryRt = .S4 → q.entryRt = .F32)

/-- Rules R130, R280. -/
def Obligations.UnitInterlockInvariant : Prop :=
  PipeState.reset.Interlocked ∧
    ∀ p q : PipeState, p.stopM = none ∨ p.Interlocked → cycle p = .next q → q.Interlocked

/-- Rules R290, R291 in the reading of D24 (log 18). -/
def Obligations.MultiplyDivideLatency : Prop :=
  ∀ (p q : PipeState) (k L : Nat), p.resetPin = false → p.start = true →
    L = (if p.frE.multSel = 0b100#3 ∨ p.frE.multSel = 0b101#3 then 5 else 10) → p.runsTo k q →
      (1 ≤ k → k ≤ L → q.busy = true ∧ q.mult.hi = p.mult.hi ∧ q.mult.lo = p.mult.lo) ∧
      (k = L + 1 → q.busy = false ∧ (q.mult.hi, q.mult.lo) = multCompute p.frE.multSel p.v1E p.v2E)

/-- Rules R107, R124, R155, R139, R312: the two levels agree on results (the shift amount by log 17). Rules R168, R180, R305, R307, R310: they agree on the next address; the hardware PC register is `npc` while the instruction is in D (rule R25). -/
def Obligations.DatapathComputesResults : Prop :=
  ∀ (w : Word) (i : Instr) (s t : State) (c : Controls), decodeWord w = .instr i → exec i s = .next t →
    c = ctrlDecoder (fOpcode w) (fFunct w) (fRt w) →
      t.npc = npcModule c.npcSel s.npc (compModule c.compSel (s.x (fRs w)) (s.x (fRt w))) (fImm w) (fIndex w)
        (s.x (fRs w)) ∧
      (instrClass i = some .alreg ∨ instrClass i = some .alimm →
        Instr.dest i = some (muxA3 c.a3Sel (fRd w) (fRt w)) ∧ c.wdSel = 0b00#2 ∧
        (muxA3 c.a3Sel (fRd w) (fRt w) ≠ 0#5 →
          t.x (muxA3 c.a3Sel (fRd w) (fRt w)) =
            aluModule c.opSel c.funcSel c.shiftByReg (s.x (fRs w))
              (if c.aluBSel then extModule c.extSel (fImm w) else s.x (fRt w)) (fShamt w))) ∧
      (instrClass i = some .mlutdiv →
        multStart c.isMultDiv c.multSel = true ∧
        (t.hi, t.lo) = multCompute c.multSel (s.x (fRs w)) (s.x (fRt w)))

/-- Rules R49, R50, R314 with D18 (log 23): the two levels agree on memory. -/
def Obligations.MemoryUnitAgrees : Prop :=
  (∀ (w : Word) (i : Instr) (s t : State) (c : Controls) (a rdata : Word), decodeWord w = .instr i →
    exec i s = .next t → c = ctrlDecoder (fOpcode w) (fFunct w) (fRt w) →
      a = s.effectiveAddress (fRs w) (fImm w) →
        (instrClass i = some .load → fRt w ≠ 0#5 → t.x (fRt w) = qModule c.dmSel a (ramWord s.ram a)) ∧
        (instrClass i = some .store → s.ram.wf = true → ∀ b, ramByte t.ram b =
          ramByte (ramWriteLanes s.ram a (byteenModule c.dmWE c.dmSel a)
            (wdataModule c.dmWE c.dmSel a (s.x (fRt w)) rdata)) b)) ∧
    (∀ (dmSel : BitVec 3) (a : Word), byteenModule false dmSel a = 0b0000#4)

/-- Rule R262, with rules R35, R242: the two levels agree on every run. It rests on D7 to D10, D24 (log 5, 6, 7, 8, 13, 18, 19). -/
def Obligations.PipelineRunsTheProgram : Prop :=
  ∀ s : State, s.resetPin = false → s.delaySlot = false → s.npc = s.pc + 4#32 → s.events = [] → s.ram.wf = true →
    (∀ (n : Nat) (t : State), Sys2Proof.core.run n s = .next t →
      (∃ k q, pipelineMachine.run k (PipeState.startAt s) = .next q ∧
        (PipeState.startAt s).retired k = s.executed n ∧
        regWrites ((PipeState.startAt s).trace k) = regWrites t.events ∧ q.gpr = t.gpr) ∧
      (∃ k q, pipelineMachine.run k (PipeState.startAt s) = .next q ∧
        stores ((PipeState.startAt s).trace k) = stores t.events ∧ ∀ a, ramByte q.ram a = ramByte t.ram a) ∧
      (∃ k q, pipelineMachine.run k (PipeState.startAt s) = .next q ∧
        q.busy = false ∧ q.mult.hi = t.hi ∧ q.mult.lo = t.lo)) ∧
    (∀ (n : Nat) (f : Fault), Sys2Proof.core.run n s = .fault f →
      ∃ k, pipelineMachine.run k (PipeState.startAt s) = .fault f) ∧
    (∀ (n : Nat) (w : Word), Sys2Proof.core.run n s = .refused (.unrecognisedInstruction w) →
      ∃ k, pipelineMachine.run k (PipeState.startAt s) = .refused (.unrecognisedInstruction w))
end

