-- ==== Sys2Proof/Laws/Decode.lean ====
section
/-! SUPPORT. What the splitter reads from the words the encoder writes (rules R70, R71), and the four bytes of a word
(rule R43). -/

namespace Sys2Proof

/-! ### Fields of an R-type word -/

theorem fOpcode_rType (rs rt rd : Reg) (sh : Shamt) (fn : BitVec 6) : fOpcode (rType rs rt rd sh fn) = 0#6 := by
  ext i hi
  simp only [fOpcode, rType, BitVec.getElem_extractLsb', BitVec.getLsbD_append]
  repeat' split
  all_goals first | omega | simp

theorem fRs_rType (rs rt rd : Reg) (sh : Shamt) (fn : BitVec 6) : fRs (rType rs rt rd sh fn) = rs := by
  refine BitVec.eq_of_getLsbD_eq fun i hi => ?_
  simp only [fRs, rType, BitVec.getLsbD_extractLsb', BitVec.getLsbD_append, hi, decide_true, Bool.true_and]
  repeat' split
  all_goals first | omega | (congr 1; omega)

theorem fRt_rType (rs rt rd : Reg) (sh : Shamt) (fn : BitVec 6) : fRt (rType rs rt rd sh fn) = rt := by
  refine BitVec.eq_of_getLsbD_eq fun i hi => ?_
  simp only [fRt, rType, BitVec.getLsbD_extractLsb', BitVec.getLsbD_append, hi, decide_true, Bool.true_and]
  repeat' split
  all_goals first | omega | (congr 1; omega)

theorem fRd_rType (rs rt rd : Reg) (sh : Shamt) (fn : BitVec 6) : fRd (rType rs rt rd sh fn) = rd := by
  refine BitVec.eq_of_getLsbD_eq fun i hi => ?_
  simp only [fRd, rType, BitVec.getLsbD_extractLsb', BitVec.getLsbD_append, hi, decide_true, Bool.true_and]
  repeat' split
  all_goals first | omega | (congr 1; omega)

theorem fShamt_rType (rs rt rd : Reg) (sh : Shamt) (fn : BitVec 6) : fShamt (rType rs rt rd sh fn) = sh := by
  refine BitVec.eq_of_getLsbD_eq fun i hi => ?_
  simp only [fShamt, rType, BitVec.getLsbD_extractLsb', BitVec.getLsbD_append, hi, decide_true, Bool.true_and]
  repeat' split
  all_goals first | omega | (congr 1; omega)

theorem fFunct_rType (rs rt rd : Reg) (sh : Shamt) (fn : BitVec 6) : fFunct (rType rs rt rd sh fn) = fn := by
  refine BitVec.eq_of_getLsbD_eq fun i hi => ?_
  simp only [fFunct, rType, BitVec.getLsbD_extractLsb', BitVec.getLsbD_append, hi, decide_true, Bool.true_and]
  repeat' split
  all_goals first | omega | (congr 1; omega)

/-! ### Fields of an I-type word -/

theorem fOpcode_iType (op : BitVec 6) (rs rt : Reg) (imm : Imm16) : fOpcode (iType op rs rt imm) = op := by
  refine BitVec.eq_of_getLsbD_eq fun i hi => ?_
  simp only [fOpcode, iType, BitVec.getLsbD_extractLsb', BitVec.getLsbD_append, hi, decide_true, Bool.true_and]
  repeat' split
  all_goals first | omega | (congr 1; omega)

theorem fRs_iType (op : BitVec 6) (rs rt : Reg) (imm : Imm16) : fRs (iType op rs rt imm) = rs := by
  refine BitVec.eq_of_getLsbD_eq fun i hi => ?_
  simp only [fRs, iType, BitVec.getLsbD_extractLsb', BitVec.getLsbD_append, hi, decide_true, Bool.true_and]
  repeat' split
  all_goals first | omega | (congr 1; omega)

theorem fRt_iType (op : BitVec 6) (rs rt : Reg) (imm : Imm16) : fRt (iType op rs rt imm) = rt := by
  refine BitVec.eq_of_getLsbD_eq fun i hi => ?_
  simp only [fRt, iType, BitVec.getLsbD_extractLsb', BitVec.getLsbD_append, hi, decide_true, Bool.true_and]
  repeat' split
  all_goals first | omega | (congr 1; omega)

theorem fImm_iType (op : BitVec 6) (rs rt : Reg) (imm : Imm16) : fImm (iType op rs rt imm) = imm := by
  refine BitVec.eq_of_getLsbD_eq fun i hi => ?_
  simp only [fImm, iType, BitVec.getLsbD_extractLsb', BitVec.getLsbD_append, hi, decide_true, Bool.true_and]
  repeat' split
  all_goals first | omega | (congr 1; omega)

/-! ### Fields of a J-type word -/

theorem fOpcode_jType (op : BitVec 6) (index : Index26) : fOpcode (jType op index) = op := by
  refine BitVec.eq_of_getLsbD_eq fun i hi => ?_
  simp only [fOpcode, jType, BitVec.getLsbD_extractLsb', BitVec.getLsbD_append, hi, decide_true, Bool.true_and]
  repeat' split
  all_goals first | omega | (congr 1; omega)

theorem fIndex_jType (op : BitVec 6) (index : Index26) : fIndex (jType op index) = index := by
  refine BitVec.eq_of_getLsbD_eq fun i hi => ?_
  simp only [fIndex, jType, BitVec.getLsbD_extractLsb', BitVec.getLsbD_append, hi, decide_true, Bool.true_and]
  repeat' split
  all_goals first | omega | (congr 1; omega)

/-! ### Bytes of a word -/

/-- The four bytes of a word make the word again (D17). -/
theorem wordOfBytes_bytesOfWord (w : Word) :
    wordOfBytes (w.extractLsb' 0 8) (w.extractLsb' 8 8) (w.extractLsb' 16 8) (w.extractLsb' 24 8) = w := by
  refine BitVec.eq_of_getLsbD_eq fun i hi => ?_
  simp only [wordOfBytes, BitVec.getLsbD_append, BitVec.getLsbD_extractLsb']
  repeat' split
  all_goals first | omega | (rw [decide_eq_true (by omega), Bool.true_and]; congr 1; omega)

/-- Decoding a word's bytes is decoding the word. -/
theorem decodeBytes_bytesOfWord (w : Word) : decodeBytes (bytesOfWord w) = decodeWord w := by
  simp only [bytesOfWord, decodeBytes, wordOfBytes_bytesOfWord]

end Sys2Proof
end

