-- ==== Sys2Proof/Laws/State.lean ====
section
/-! SUPPORT. One lemma per field per update of `State`, each true by unfolding the record. -/

namespace Sys2Proof.Machine

/-! ### `State.setX` -/

@[simp] theorem State.setX_gpr (s : State) (r : Reg) (v : Word) : (s.setX r v).gpr = writeReg s.gpr r v := rfl
@[simp] theorem State.setX_pc (s : State) (r : Reg) (v : Word) : (s.setX r v).pc = s.pc := rfl
@[simp] theorem State.setX_npc (s : State) (r : Reg) (v : Word) : (s.setX r v).npc = s.npc := rfl
@[simp] theorem State.setX_hi (s : State) (r : Reg) (v : Word) : (s.setX r v).hi = s.hi := rfl
@[simp] theorem State.setX_lo (s : State) (r : Reg) (v : Word) : (s.setX r v).lo = s.lo := rfl
@[simp] theorem State.setX_ram (s : State) (r : Reg) (v : Word) : (s.setX r v).ram = s.ram := rfl
@[simp] theorem State.setX_rom (s : State) (r : Reg) (v : Word) : (s.setX r v).rom = s.rom := rfl
@[simp] theorem State.setX_delaySlot (s : State) (r : Reg) (v : Word) : (s.setX r v).delaySlot = s.delaySlot := rfl
@[simp] theorem State.setX_resetPin (s : State) (r : Reg) (v : Word) : (s.setX r v).resetPin = s.resetPin := rfl
@[simp] theorem State.setX_params (s : State) (r : Reg) (v : Word) : (s.setX r v).params = s.params := rfl
@[simp] theorem State.setX_events (s : State) (r : Reg) (v : Word) : (s.setX r v).events = s.events := rfl

/-! ### `State.record` -/

@[simp] theorem State.record_gpr (s : State) (e : Event) : (s.record e).gpr = s.gpr := rfl
@[simp] theorem State.record_pc (s : State) (e : Event) : (s.record e).pc = s.pc := rfl
@[simp] theorem State.record_npc (s : State) (e : Event) : (s.record e).npc = s.npc := rfl
@[simp] theorem State.record_hi (s : State) (e : Event) : (s.record e).hi = s.hi := rfl
@[simp] theorem State.record_lo (s : State) (e : Event) : (s.record e).lo = s.lo := rfl
@[simp] theorem State.record_ram (s : State) (e : Event) : (s.record e).ram = s.ram := rfl
@[simp] theorem State.record_rom (s : State) (e : Event) : (s.record e).rom = s.rom := rfl
@[simp] theorem State.record_delaySlot (s : State) (e : Event) : (s.record e).delaySlot = s.delaySlot := rfl
@[simp] theorem State.record_resetPin (s : State) (e : Event) : (s.record e).resetPin = s.resetPin := rfl
@[simp] theorem State.record_params (s : State) (e : Event) : (s.record e).params = s.params := rfl
@[simp] theorem State.record_events (s : State) (e : Event) : (s.record e).events = s.events ++ [e] := rfl
@[simp] theorem State.record_x (s : State) (e : Event) (q : Reg) : (s.record e).x q = s.x q := rfl

/-! ### `State.setHi` -/

@[simp] theorem State.setHi_gpr (s : State) (v : Word) : (s.setHi v).gpr = s.gpr := rfl
@[simp] theorem State.setHi_pc (s : State) (v : Word) : (s.setHi v).pc = s.pc := rfl
@[simp] theorem State.setHi_npc (s : State) (v : Word) : (s.setHi v).npc = s.npc := rfl
@[simp] theorem State.setHi_hi (s : State) (v : Word) : (s.setHi v).hi = v := rfl
@[simp] theorem State.setHi_lo (s : State) (v : Word) : (s.setHi v).lo = s.lo := rfl
@[simp] theorem State.setHi_ram (s : State) (v : Word) : (s.setHi v).ram = s.ram := rfl
@[simp] theorem State.setHi_rom (s : State) (v : Word) : (s.setHi v).rom = s.rom := rfl
@[simp] theorem State.setHi_delaySlot (s : State) (v : Word) : (s.setHi v).delaySlot = s.delaySlot := rfl
@[simp] theorem State.setHi_resetPin (s : State) (v : Word) : (s.setHi v).resetPin = s.resetPin := rfl
@[simp] theorem State.setHi_params (s : State) (v : Word) : (s.setHi v).params = s.params := rfl
@[simp] theorem State.setHi_events (s : State) (v : Word) : (s.setHi v).events = s.events := rfl
@[simp] theorem State.setHi_x (s : State) (v : Word) (q : Reg) : (s.setHi v).x q = s.x q := rfl

/-! ### `State.setLo` -/

@[simp] theorem State.setLo_gpr (s : State) (v : Word) : (s.setLo v).gpr = s.gpr := rfl
@[simp] theorem State.setLo_pc (s : State) (v : Word) : (s.setLo v).pc = s.pc := rfl
@[simp] theorem State.setLo_npc (s : State) (v : Word) : (s.setLo v).npc = s.npc := rfl
@[simp] theorem State.setLo_hi (s : State) (v : Word) : (s.setLo v).hi = s.hi := rfl
@[simp] theorem State.setLo_lo (s : State) (v : Word) : (s.setLo v).lo = v := rfl
@[simp] theorem State.setLo_ram (s : State) (v : Word) : (s.setLo v).ram = s.ram := rfl
@[simp] theorem State.setLo_rom (s : State) (v : Word) : (s.setLo v).rom = s.rom := rfl
@[simp] theorem State.setLo_delaySlot (s : State) (v : Word) : (s.setLo v).delaySlot = s.delaySlot := rfl
@[simp] theorem State.setLo_resetPin (s : State) (v : Word) : (s.setLo v).resetPin = s.resetPin := rfl
@[simp] theorem State.setLo_params (s : State) (v : Word) : (s.setLo v).params = s.params := rfl
@[simp] theorem State.setLo_events (s : State) (v : Word) : (s.setLo v).events = s.events := rfl
@[simp] theorem State.setLo_x (s : State) (v : Word) (q : Reg) : (s.setLo v).x q = s.x q := rfl

/-! ### `State.advanceTo` -/

@[simp] theorem State.advanceTo_gpr (s : State) (t : Word) (b : Bool) : (s.advanceTo t b).gpr = s.gpr := rfl
@[simp] theorem State.advanceTo_pc (s : State) (t : Word) (b : Bool) : (s.advanceTo t b).pc = s.npc := rfl
@[simp] theorem State.advanceTo_npc (s : State) (t : Word) (b : Bool) : (s.advanceTo t b).npc = t := rfl
@[simp] theorem State.advanceTo_hi (s : State) (t : Word) (b : Bool) : (s.advanceTo t b).hi = s.hi := rfl
@[simp] theorem State.advanceTo_lo (s : State) (t : Word) (b : Bool) : (s.advanceTo t b).lo = s.lo := rfl
@[simp] theorem State.advanceTo_ram (s : State) (t : Word) (b : Bool) : (s.advanceTo t b).ram = s.ram := rfl
@[simp] theorem State.advanceTo_rom (s : State) (t : Word) (b : Bool) : (s.advanceTo t b).rom = s.rom := rfl
@[simp] theorem State.advanceTo_delaySlot (s : State) (t : Word) (b : Bool) : (s.advanceTo t b).delaySlot = b := rfl
@[simp] theorem State.advanceTo_resetPin (s : State) (t : Word) (b : Bool) : (s.advanceTo t b).resetPin = s.resetPin := rfl
@[simp] theorem State.advanceTo_params (s : State) (t : Word) (b : Bool) : (s.advanceTo t b).params = s.params := rfl
@[simp] theorem State.advanceTo_events (s : State) (t : Word) (b : Bool) : (s.advanceTo t b).events = s.events := rfl
@[simp] theorem State.advanceTo_x (s : State) (t : Word) (b : Bool) (q : Reg) : (s.advanceTo t b).x q = s.x q := rfl

/-! ### `State.memWrite` -/

@[simp] theorem State.memWrite_gpr (s : State) (a : Word) (n : Nat) (v : BitVec (8 * n)) : (s.memWrite a n v).gpr = s.gpr := rfl
@[simp] theorem State.memWrite_pc (s : State) (a : Word) (n : Nat) (v : BitVec (8 * n)) : (s.memWrite a n v).pc = s.pc := rfl
@[simp] theorem State.memWrite_npc (s : State) (a : Word) (n : Nat) (v : BitVec (8 * n)) : (s.memWrite a n v).npc = s.npc := rfl
@[simp] theorem State.memWrite_hi (s : State) (a : Word) (n : Nat) (v : BitVec (8 * n)) : (s.memWrite a n v).hi = s.hi := rfl
@[simp] theorem State.memWrite_lo (s : State) (a : Word) (n : Nat) (v : BitVec (8 * n)) : (s.memWrite a n v).lo = s.lo := rfl
@[simp] theorem State.memWrite_ram (s : State) (a : Word) (n : Nat) (v : BitVec (8 * n)) : (s.memWrite a n v).ram = ramPutBytes s.ram a.toNat (valueBytes n v) := rfl
@[simp] theorem State.memWrite_rom (s : State) (a : Word) (n : Nat) (v : BitVec (8 * n)) : (s.memWrite a n v).rom = s.rom := rfl
@[simp] theorem State.memWrite_delaySlot (s : State) (a : Word) (n : Nat) (v : BitVec (8 * n)) : (s.memWrite a n v).delaySlot = s.delaySlot := rfl
@[simp] theorem State.memWrite_resetPin (s : State) (a : Word) (n : Nat) (v : BitVec (8 * n)) : (s.memWrite a n v).resetPin = s.resetPin := rfl
@[simp] theorem State.memWrite_params (s : State) (a : Word) (n : Nat) (v : BitVec (8 * n)) : (s.memWrite a n v).params = s.params := rfl
@[simp] theorem State.memWrite_events (s : State) (a : Word) (n : Nat) (v : BitVec (8 * n)) : (s.memWrite a n v).events = s.events := rfl
@[simp] theorem State.memWrite_x (s : State) (a : Word) (n : Nat) (v : BitVec (8 * n)) (q : Reg) : (s.memWrite a n v).x q = s.x q := rfl

/-! ### `State.writeBack` -/

@[simp] theorem State.writeBack_gpr (s : State) (r : Reg) (v : Word) : (s.writeBack r v).gpr = writeReg s.gpr r v := rfl
@[simp] theorem State.writeBack_pc (s : State) (r : Reg) (v : Word) : (s.writeBack r v).pc = s.pc := rfl
@[simp] theorem State.writeBack_npc (s : State) (r : Reg) (v : Word) : (s.writeBack r v).npc = s.npc := rfl
@[simp] theorem State.writeBack_hi (s : State) (r : Reg) (v : Word) : (s.writeBack r v).hi = s.hi := rfl
@[simp] theorem State.writeBack_lo (s : State) (r : Reg) (v : Word) : (s.writeBack r v).lo = s.lo := rfl
@[simp] theorem State.writeBack_ram (s : State) (r : Reg) (v : Word) : (s.writeBack r v).ram = s.ram := rfl
@[simp] theorem State.writeBack_rom (s : State) (r : Reg) (v : Word) : (s.writeBack r v).rom = s.rom := rfl
@[simp] theorem State.writeBack_delaySlot (s : State) (r : Reg) (v : Word) : (s.writeBack r v).delaySlot = s.delaySlot := rfl
@[simp] theorem State.writeBack_resetPin (s : State) (r : Reg) (v : Word) : (s.writeBack r v).resetPin = s.resetPin := rfl
@[simp] theorem State.writeBack_params (s : State) (r : Reg) (v : Word) : (s.writeBack r v).params = s.params := rfl
@[simp] theorem State.writeBack_events (s : State) (r : Reg) (v : Word) : (s.writeBack r v).events = s.events ++ [.regWrite r v] := rfl

/-! ### `State.advance` -/

@[simp] theorem State.advance_gpr (s : State) : (s.advance).gpr = s.gpr := rfl
@[simp] theorem State.advance_pc (s : State) : (s.advance).pc = s.npc := rfl
@[simp] theorem State.advance_npc (s : State) : (s.advance).npc = s.npc + 4#32 := rfl
@[simp] theorem State.advance_hi (s : State) : (s.advance).hi = s.hi := rfl
@[simp] theorem State.advance_lo (s : State) : (s.advance).lo = s.lo := rfl
@[simp] theorem State.advance_ram (s : State) : (s.advance).ram = s.ram := rfl
@[simp] theorem State.advance_rom (s : State) : (s.advance).rom = s.rom := rfl
@[simp] theorem State.advance_delaySlot (s : State) : (s.advance).delaySlot = false := rfl
@[simp] theorem State.advance_resetPin (s : State) : (s.advance).resetPin = s.resetPin := rfl
@[simp] theorem State.advance_params (s : State) : (s.advance).params = s.params := rfl
@[simp] theorem State.advance_events (s : State) : (s.advance).events = s.events := rfl
@[simp] theorem State.advance_x (s : State) (q : Reg) : (s.advance).x q = s.x q := rfl

/-! ### `State.setHiLo` -/

@[simp] theorem State.setHiLo_gpr (s : State) (p : Word × Word) : (s.setHiLo p).gpr = s.gpr := rfl
@[simp] theorem State.setHiLo_pc (s : State) (p : Word × Word) : (s.setHiLo p).pc = s.pc := rfl
@[simp] theorem State.setHiLo_npc (s : State) (p : Word × Word) : (s.setHiLo p).npc = s.npc := rfl
@[simp] theorem State.setHiLo_hi (s : State) (p : Word × Word) : (s.setHiLo p).hi = p.1 := rfl
@[simp] theorem State.setHiLo_lo (s : State) (p : Word × Word) : (s.setHiLo p).lo = p.2 := rfl
@[simp] theorem State.setHiLo_ram (s : State) (p : Word × Word) : (s.setHiLo p).ram = s.ram := rfl
@[simp] theorem State.setHiLo_rom (s : State) (p : Word × Word) : (s.setHiLo p).rom = s.rom := rfl
@[simp] theorem State.setHiLo_delaySlot (s : State) (p : Word × Word) : (s.setHiLo p).delaySlot = s.delaySlot := rfl
@[simp] theorem State.setHiLo_resetPin (s : State) (p : Word × Word) : (s.setHiLo p).resetPin = s.resetPin := rfl
@[simp] theorem State.setHiLo_params (s : State) (p : Word × Word) : (s.setHiLo p).params = s.params := rfl
@[simp] theorem State.setHiLo_events (s : State) (p : Word × Word) : (s.setHiLo p).events = s.events := rfl
@[simp] theorem State.setHiLo_x (s : State) (p : Word × Word) (q : Reg) : (s.setHiLo p).x q = s.x q := rfl

/-! ### `State.applyReset` -/

@[simp] theorem State.applyReset_gpr (s : State) : (s.applyReset).gpr = State.reset.gpr := rfl
@[simp] theorem State.applyReset_pc (s : State) : (s.applyReset).pc = State.reset.pc := rfl
@[simp] theorem State.applyReset_npc (s : State) : (s.applyReset).npc = State.reset.npc := rfl
@[simp] theorem State.applyReset_hi (s : State) : (s.applyReset).hi = State.reset.hi := rfl
@[simp] theorem State.applyReset_lo (s : State) : (s.applyReset).lo = State.reset.lo := rfl
@[simp] theorem State.applyReset_ram (s : State) : (s.applyReset).ram = s.ram := rfl
@[simp] theorem State.applyReset_rom (s : State) : (s.applyReset).rom = s.rom := rfl
@[simp] theorem State.applyReset_delaySlot (s : State) : (s.applyReset).delaySlot = false := rfl
@[simp] theorem State.applyReset_resetPin (s : State) : (s.applyReset).resetPin = s.resetPin := rfl
@[simp] theorem State.applyReset_params (s : State) : (s.applyReset).params = s.params := rfl
@[simp] theorem State.applyReset_events (s : State) : (s.applyReset).events = s.events := rfl

/-! ### Reading a register after the two updates that write one -/

theorem State.x_def (s : State) (q : Reg) : s.x q = readReg s.gpr q := rfl

@[simp] theorem State.setX_x_gpr (s : State) (r : Reg) (v : Word) (q : Reg) :
    (s.setX r v).x q = readReg (writeReg s.gpr r v) q := rfl

@[simp] theorem State.writeBack_x_gpr (s : State) (r : Reg) (v : Word) (q : Reg) :
    (s.writeBack r v).x q = readReg (writeReg s.gpr r v) q := rfl

end Sys2Proof.Machine
end

