-- ==== Sys2Proof/Laws/Memory.lean ====
section
/-! SUPPORT. The laws of the register file (rule R21) and of memories: reading after writing, and that every
memory operation keeps the canonical form. -/

namespace Sys2Proof.Machine

/-! ### The register file -/

@[simp] theorem readReg_zero (g : Regs) : readReg g 0#5 = 0#32 := by simp [readReg]

theorem writeReg_zero (g : Regs) (v : Word) : writeReg g 0#5 v = g := by simp [writeReg]

/-- What every register reads as after a write (rule R21). -/
theorem readReg_writeReg (g : Regs) (r q : Reg) (v : Word) :
    readReg (writeReg g r v) q = if q = r ∧ r ≠ 0#5 then v else readReg g q := by
  by_cases hq : q = 0#5
  · subst hq
    by_cases hr : r = 0#5
    · simp [hr]
    · simp [Ne.symm hr]
  · by_cases hr : r = 0#5
    · simp [hr, writeReg_zero]
    · have hr' : r.toNat ≠ 0 := fun h => hr (BitVec.eq_of_toNat_eq (by simpa using h))
      have hq' : q.toNat ≠ 0 := fun h => hq (BitVec.eq_of_toNat_eq (by simpa using h))
      by_cases he : q = r
      · subst he; simp [readReg, writeReg, hq]
      · have hn : r.toNat - 1 ≠ q.toNat - 1 := fun h => he (BitVec.eq_of_toNat_eq (by omega))
        simp [readReg, writeReg, hq, hr, he, Vector.getElem_set_ne, hn]

theorem State.writeBack_x (s : State) (r q : Reg) (v : Word) :
    (s.writeBack r v).x q = if q = r ∧ r ≠ 0#5 then v else s.x q := readReg_writeReg s.gpr r q v

/-! ### Finding bytes -/

theorem Memory.find?_insert (m : Memory) (a k : Nat) (b : Byte) :
    (m.insert a b).find? k = if k = a then some b else m.find? k := by
  induction m with
  | nil => simp [Memory.insert, Memory.find?, eq_comm]
  | cons c m ih =>
    obtain ⟨k', c'⟩ := c
    simp only [Memory.insert]
    split
    · simp [Memory.find?, eq_comm (a := a)]
    · split
      · rename_i h; subst h
        by_cases hk : k = a
        · simp [Memory.find?, hk]
        · simp [Memory.find?, hk, Ne.symm hk]
      · rename_i h1 h2
        simp only [Memory.find?, ih]
        by_cases hk : k' = k
        · subst hk; simp [Ne.symm h2]
        · simp [hk]

/-- The first listed address is below every other one of a rising memory. -/
theorem Memory.rising_cons {c : Host.Cell} {m : Memory} :
    Memory.rising (c :: m) = true ↔ (∀ d ∈ m, c.1 < d.1) ∧ m.rising = true := by
  induction m generalizing c with
  | nil => simp [Memory.rising]
  | cons d m ih =>
    simp only [Memory.rising, Bool.and_eq_true, decide_eq_true_eq, List.mem_cons, forall_eq_or_imp]
    constructor
    · rintro ⟨h1, h2⟩
      have h3 := ih.mp h2
      exact ⟨⟨h1, fun e he => lt_trans h1 (h3.1 e he)⟩, h2⟩
    · rintro ⟨⟨h1, _⟩, h2⟩; exact ⟨h1, h2⟩

theorem Memory.find?_none_of_lt {m : Memory} {a : Nat} (h : ∀ d ∈ m, a < d.1) : m.find? a = none := by
  induction m with
  | nil => rfl
  | cons c m ih =>
    have h1 : a < c.1 := h c (by simp)
    simp only [Memory.find?]
    rw [if_neg (by omega)]
    exact ih (fun d hd => h d (by simp [hd]))

theorem Memory.find?_erase {m : Memory} (hm : m.rising = true) (a k : Nat) :
    (m.erase a).find? k = if k = a then none else m.find? k := by
  induction m with
  | nil => simp [Memory.erase, Memory.find?]
  | cons c m ih =>
    obtain ⟨k', c'⟩ := c
    have h := Memory.rising_cons.mp hm
    simp only [Memory.erase]
    split
    · rename_i he; subst he
      by_cases hk : k = k'
      · subst hk; simpa using Memory.find?_none_of_lt h.1
      · simp [Memory.find?, hk, Ne.symm hk]
    · rename_i he
      simp only [Memory.find?, ih h.2]
      by_cases hk : k' = k
      · subst hk; simp [he]
      · simp [hk]

/-! ### The canonical form -/

theorem Memory.mem_insert {m : Memory} {a : Nat} {b : Byte} {d : Host.Cell} (h : d ∈ m.insert a b) :
    d = (a, b) ∨ d ∈ m := by
  induction m with
  | nil => simpa [Memory.insert] using h
  | cons c m ih =>
    obtain ⟨k, c'⟩ := c
    simp only [Memory.insert] at h
    split at h
    · simpa using h
    · split at h
      · simp only [List.mem_cons] at h ⊢; tauto
      · simp only [List.mem_cons] at h ⊢
        rcases h with h | h
        · exact .inr (.inl h)
        · rcases ih h with h | h
          · exact .inl h
          · exact .inr (.inr h)

theorem Memory.mem_of_mem_erase {m : Memory} {a : Nat} {d : Host.Cell} (h : d ∈ m.erase a) : d ∈ m := by
  induction m with
  | nil => simp [Memory.erase] at h
  | cons c m ih =>
    simp only [Memory.erase] at h
    split at h
    · simp [h]
    · simp only [List.mem_cons] at h ⊢
      exact h.imp id ih

theorem Memory.rising_insert {m : Memory} (hm : m.rising = true) (a : Nat) (b : Byte) :
    (m.insert a b).rising = true := by
  induction m with
  | nil => rfl
  | cons c m ih =>
    obtain ⟨k, c'⟩ := c
    have h := Memory.rising_cons.mp hm
    simp only [Memory.insert]
    split
    · rename_i hlt
      refine Memory.rising_cons.mpr ⟨fun d hd => ?_, hm⟩
      rcases List.mem_cons.mp hd with rfl | hd
      · exact hlt
      · exact lt_trans hlt (h.1 d hd)
    · split
      · rename_i he; subst he; exact Memory.rising_cons.mpr h
      · refine Memory.rising_cons.mpr ⟨fun d hd => ?_, ih h.2⟩
        rcases Memory.mem_insert hd with rfl | hd
        · show k < a; omega
        · exact h.1 d hd

theorem Memory.rising_erase {m : Memory} (hm : m.rising = true) (a : Nat) : (m.erase a).rising = true := by
  induction m with
  | nil => rfl
  | cons c m ih =>
    have h := Memory.rising_cons.mp hm
    simp only [Memory.erase]
    split
    · exact h.2
    · exact Memory.rising_cons.mpr ⟨fun d hd => h.1 d (Memory.mem_of_mem_erase hd), ih h.2⟩

theorem Memory.wf_rising {m : Memory} (h : m.wf = true) : m.rising = true := by
  simp only [Memory.wf, Bool.and_eq_true] at h; exact h.1

/-- Writing one byte keeps the canonical form. -/
theorem ramPut_wf {m : Memory} (hm : m.wf = true) (a : Nat) (b : Byte) : (ramPut m a b).wf = true := by
  have hr := Memory.wf_rising hm
  simp only [Memory.wf, Bool.and_eq_true, List.all_eq_true] at hm
  unfold ramPut
  split
  · simp only [Memory.wf, Bool.and_eq_true, List.all_eq_true]
    exact ⟨Memory.rising_erase hr a, fun d hd => hm.2 d (Memory.mem_of_mem_erase hd)⟩
  · rename_i hb
    simp only [Memory.wf, Bool.and_eq_true, List.all_eq_true]
    refine ⟨Memory.rising_insert hr a b, fun d hd => ?_⟩
    rcases Memory.mem_insert hd with rfl | hd
    · simpa using hb
    · exact hm.2 d hd

/-- Storing bytes keeps the canonical form. -/
theorem ramPutBytes_wf {m : Memory} (hm : m.wf = true) (a : Nat) (bs : List Byte) :
    (ramPutBytes m a bs).wf = true := by
  induction bs generalizing m a with
  | nil => exact hm
  | cons b bs ih => exact ih (ramPut_wf hm a b) (a + 1)

/-- A listed byte after a write is the byte written or was listed before. -/
theorem mem_ramPut {m : Memory} {a : Nat} {b : Byte} {d : Host.Cell} (h : d ∈ ramPut m a b) :
    d = (a, b) ∨ d ∈ m := by
  unfold ramPut at h
  split at h
  · exact .inr (Memory.mem_of_mem_erase h)
  · exact Memory.mem_insert h

/-- Listing bytes of a ROM keeps its addresses rising. -/
theorem romPutBytes_rising {m : Memory} (hm : m.rising = true) (a : Nat) (bs : List Byte) :
    (romPutBytes m a bs).rising = true := by
  induction bs generalizing m a with
  | nil => exact hm
  | cons b bs ih => exact ih (Memory.rising_insert hm a b) (a + 1)

/-! ### Reading bytes of the RAM after a write -/

/-- A byte read after one byte is written. -/
theorem ramByte_ramPut {m : Memory} (hm : m.rising = true) (a k : Nat) (b : Byte) :
    ramByte (ramPut m a b) k = if k = a then b else ramByte m k := by
  unfold ramByte ramPut
  split
  · rename_i hb
    rw [Memory.find?_erase hm]
    split <;> simp [hb]
  · rw [Memory.find?_insert]
    split <;> simp

theorem ramPut_rising {m : Memory} (hm : m.rising = true) (a : Nat) (b : Byte) :
    (ramPut m a b).rising = true := by
  unfold ramPut
  split
  · exact Memory.rising_erase hm a
  · exact Memory.rising_insert hm a b

theorem ramPutBytes_rising {m : Memory} (hm : m.rising = true) (a : Nat) (bs : List Byte) :
    (ramPutBytes m a bs).rising = true := by
  induction bs generalizing m a with
  | nil => exact hm
  | cons b bs ih => exact ih (ramPut_rising hm a b) (a + 1)

/-- A byte read after bytes are stored: the stored one inside them, the old one outside (rule R47). -/
theorem ramByte_ramPutBytes {m : Memory} (hm : m.rising = true) (a k : Nat) (bs : List Byte) :
    ramByte (ramPutBytes m a bs) k =
      if h : a ≤ k ∧ k < a + bs.length then bs[k - a]'(by omega) else ramByte m k := by
  induction bs generalizing m a with
  | nil =>
    rw [dif_neg (by simp)]; rfl
  | cons b bs ih =>
    simp only [ramPutBytes, ih (ramPut_rising hm a b), ramByte_ramPut hm, List.length_cons]
    by_cases h1 : k = a
    · subst h1; simp
    · by_cases h2 : a + 1 ≤ k ∧ k < a + 1 + bs.length
      · rw [dif_pos h2, dif_pos (by omega)]
        have h3 : k - a = (k - (a + 1)) + 1 := by omega
        simp [h3]
      · rw [dif_neg h2, dif_neg (by omega), if_neg h1]

end Sys2Proof.Machine
end

