-- ==== Sys2Proof/Laws/Ops.lean ====
section
/-! SUPPORT. One lemma per shared operation: when it answers a next state, and which one. Later proofs cite these and
do not unfold the operation. -/

namespace Sys2Proof.Machine

/-! ### Data accesses -/

/-- An access is let through exactly when it is aligned and wholly inside the window (rules R51, R53). -/
theorem dataFault_none (p : Params) (a : Word) (n : Nat) :
    dataFault p a n = none ↔ a.toNat % n = 0 ∧ Params.dataInside p a n = true := by
  unfold dataFault
  by_cases h : a.toNat % n = 0
  · cases hd : Params.dataInside p a n <;> simp [h]
  · simp [h]

/-- The window test as inequalities (rule R53). -/
theorem Params.dataInside_iff (p : Params) (a : Word) (n : Nat) :
    Params.dataInside p a n = true ↔ p.dmBase ≤ a.toNat ∧ a.toNat + n ≤ p.dmBase + p.dmSize := by
  simp [Params.dataInside]

/-- All that a load can answer. -/
theorem State.load_cases (s : State) (rt : Reg) (a : Word) (n : Nat) (ext : BitVec (8 * n) → Word) :
    (∃ f, dataFault s.params a n = some f ∧ s.load rt a n ext = .fault f) ∨
      (dataFault s.params a n = none ∧
        s.load rt a n ext = .next (s.writeBack rt (ext (s.memRead a n))).advance) := by
  unfold State.load
  cases h : dataFault s.params a n with
  | none => simp
  | some f => simp

theorem State.load_next {s t : State} {rt : Reg} {a : Word} {n : Nat} {ext : BitVec (8 * n) → Word} :
    s.load rt a n ext = .next t ↔
      dataFault s.params a n = none ∧ t = (s.writeBack rt (ext (s.memRead a n))).advance := by
  rcases s.load_cases rt a n ext with ⟨f, h1, h2⟩ | ⟨h1, h2⟩ <;> simp [h1, h2, eq_comm]

/-- All that a store can answer. -/
theorem State.store_cases (s : State) (a : Word) (n : Nat) (v : BitVec (8 * n)) :
    (∃ f, dataFault s.params a n = some f ∧ s.store a n v = .fault f) ∨
      (dataFault s.params a n = none ∧
        s.store a n v = .next ((s.memWrite a n v).record (s.storeEvent a n v)).advance) := by
  unfold State.store
  cases h : dataFault s.params a n with
  | none => simp
  | some f => simp

theorem State.store_next {s t : State} {a : Word} {n : Nat} {v : BitVec (8 * n)} :
    s.store a n v = .next t ↔
      dataFault s.params a n = none ∧ t = ((s.memWrite a n v).record (s.storeEvent a n v)).advance := by
  rcases s.store_cases a n v with ⟨f, h1, h2⟩ | ⟨h1, h2⟩ <;> simp [h1, h2, eq_comm]

/-- One lane of the aligned word (rule R45). -/
theorem ramWord_lane (m : Memory) (a : Word) (k : Nat) (hk : k < 4) :
    (ramWord m a).extractLsb' (8 * k) 8 = ramByte m (a.toNat - a.toNat % 4 + k) := by
  have h : k = 0 ∨ k = 1 ∨ k = 2 ∨ k = 3 := by omega
  rcases h with rfl | rfl | rfl | rfl <;>
    (ext i hi
     rw [BitVec.getElem_extractLsb', ← BitVec.getLsbD_eq_getElem]
     unfold ramWord
     simp only [BitVec.getLsbD_append]
     repeat' split
     all_goals first | omega | (congr 1; omega))

/-- The stored bytes of a value: how many, and which. -/
theorem valueBytes_length (n : Nat) (v : BitVec (8 * n)) : (valueBytes n v).length = n := by
  simp [valueBytes]

theorem valueBytes_getElem (n : Nat) (v : BitVec (8 * n)) (k : Nat) (hk : k < (valueBytes n v).length) :
    (valueBytes n v)[k] = v.extractLsb' (8 * k) 8 := by
  simp [valueBytes]

/-- Every byte of the RAM after `MemWrite` (rule R47). -/
theorem State.ramByte_memWrite {s : State} (hs : s.ram.rising = true) (a : Word) (n : Nat) (v : BitVec (8 * n))
    (k : Nat) :
    ramByte (s.memWrite a n v).ram k =
      if a.toNat ≤ k ∧ k < a.toNat + n then v.extractLsb' (8 * (k - a.toNat)) 8 else ramByte s.ram k := by
  rw [State.memWrite_ram, ramByte_ramPutBytes hs]
  by_cases h : a.toNat ≤ k ∧ k < a.toNat + n
  · rw [dif_pos (by simpa [valueBytes_length] using h), if_pos h, valueBytes_getElem]
  · rw [dif_neg (by simpa [valueBytes_length] using h), if_neg h]

/-- `MemWrite` keeps the canonical form. -/
theorem State.memWrite_wf {s : State} (hs : s.ram.wf = true) (a : Word) (n : Nat) (v : BitVec (8 * n)) :
    (s.memWrite a n v).ram.wf = true := ramPutBytes_wf hs _ _

/-- The memory right after reset has the canonical form. -/
theorem reset_ram_wf : State.reset.ram.wf = true := rfl

/-- A lane write of the pipeline's RAM keeps the canonical form. -/
theorem ramPut_if_wf {m : Memory} (hm : m.wf = true) (c : Bool) (a : Nat) (b : Byte) :
    (if c then ramPut m a b else m).wf = true := by
  cases c
  · simpa using hm
  · simpa using ramPut_wf hm a b

/-- A listed byte after `MemWrite` is one of the stored bytes or was listed before. -/
theorem mem_ramPutBytes {m : Memory} {a : Nat} {bs : List Byte} {d : Host.Cell} (h : d ∈ ramPutBytes m a bs) :
    (a ≤ d.1 ∧ d.1 < a + bs.length) ∨ d ∈ m := by
  induction bs generalizing m a with
  | nil => exact .inr h
  | cons b bs ih =>
    rcases ih h with h | h
    · left; simp only [List.length_cons]; omega
    · rcases mem_ramPut h with rfl | h
      · left; simp
      · exact .inr h

/-! ### Control transfers -/

theorem State.controlTransfer_next {s t : State} {k : Result} :
    s.controlTransfer k = .next t ↔ s.delaySlot = false ∧ k = .next t := by
  unfold State.controlTransfer
  cases s.delaySlot <;> simp

/-- All that a branch can answer. -/
theorem State.branch_next {s t : State} {c : Bool} {imm : Imm16} :
    s.branch c imm = .next t ↔
      s.delaySlot = false ∧ t = s.advanceTo (if c then s.branchTarget imm else s.npc + 4#32) true := by
  unfold State.branch
  rw [State.controlTransfer_next]
  exact and_congr_right fun _ => ⟨fun h => (Host.Outcome.next.inj h).symm, fun h => h ▸ rfl⟩

/-- All that a register jump can answer. -/
theorem State.jumpRegister_next {s t l : State} {a : Word} :
    s.jumpRegister a l = .next t ↔ s.delaySlot = false ∧ instrAligned a = true ∧ t = l.advanceTo a true := by
  unfold State.jumpRegister
  rw [State.controlTransfer_next]
  refine and_congr_right fun _ => ?_
  cases instrAligned a
  · simp
  · simp only [if_true, true_and]
    exact ⟨fun h => (Host.Outcome.next.inj h).symm, fun h => h ▸ rfl⟩

/-- In a delay slot every control transfer is refused. -/
theorem State.controlTransfer_refused {s : State} (h : s.delaySlot = true) (k : Result) :
    s.controlTransfer k = .refused .controlTransferInDelaySlot := by simp [State.controlTransfer, h]

/-! ### Fetch and step -/

/-- When a fetch gives a word (rules R43, R215). -/
theorem fetchWord_word {p : Params} {rom : Memory} {a w : Word} :
    fetchWord p rom a = .word w ↔
      Params.instrInside p a = true ∧ romWord rom a = some w ∧ instrAligned a = true := by
  unfold fetchWord
  cases Params.instrInside p a <;> cases romWord rom a <;> cases instrAligned a <;> simp

/-- All the ways a step can go on. -/
theorem step_next {s t : State} :
    step s = .next t ↔
      (s.resetPin = true ∧ t = s.applyReset) ∨
        (s.resetPin = false ∧ ∃ w, fetchWord s.params s.rom s.pc = .word w ∧
          ((∃ i, decodeWord w = .instr i ∧ exec i s = .next t) ∨
            (∃ e, decodeWord w = .rejected e ∧ s.params.illegalAsNop = true ∧ t = s.advance))) := by
  unfold step
  cases s.resetPin
  · simp only [Bool.false_eq_true, if_false, false_and, false_or, true_and]
    cases hf : fetchWord s.params s.rom s.pc with
    | stop f => simp
    | word w =>
      cases hd : decodeWord w with
      | instr i => simp [hd]
      | rejected e =>
        simp only [stepUnrecognised, Fetched.word.injEq, exists_eq_left', hd]
        cases s.params.illegalAsNop
        · simp
        · simp only [if_true, true_and]
          exact ⟨fun h => .inr ⟨_, rfl, (Host.Outcome.next.inj h).symm⟩,
            fun h => by rcases h with ⟨i, h, _⟩ | ⟨_, _, h⟩ <;> simp_all⟩
  · simp only [if_true, true_and, Bool.true_eq_false, false_and, or_false]
    exact ⟨fun h => (Host.Outcome.next.inj h).symm, fun h => h ▸ rfl⟩

end Sys2Proof.Machine
end

