-- ==== Sys2Proof/Laws/PerInstr.lean ====
section
/-! SUPPORT. The per-instruction family `RowMatch`: the word of an instruction matches the mask and the bits of its row of
`opcode_table.json` (rule R80). One lemma per constructor. -/

namespace Sys2Proof

/-- The fixed bits of an R-type row: opcode 000000 and `funct` (rules R72, R77). -/
theorem rType_and_mask (rs rt rd : Reg) (sh : Shamt) (fn : BitVec 6) :
    rType rs rt rd sh fn &&& 0xFC00003F#32 = 0#26 ++ fn := by
  refine BitVec.eq_of_getLsbD_eq fun i hi => ?_
  simp only [rType, BitVec.getLsbD_and, BitVec.getLsbD_append]
  interval_cases i <;> simp

/-- The fixed bits of an I-type row without a fixed `rt`: the opcode (rule R76). -/
theorem iType_and_mask (op : BitVec 6) (rs rt : Reg) (imm : Imm16) :
    iType op rs rt imm &&& 0xFC000000#32 = op ++ 0#26 := by
  refine BitVec.eq_of_getLsbD_eq fun i hi => ?_
  simp only [iType, BitVec.getLsbD_and, BitVec.getLsbD_append]
  interval_cases i <;> simp

/-- The fixed bits of an I-type row with a fixed `rt`: the opcode and `rt` (rules R78, R79). -/
theorem iType_and_mask_rt (op : BitVec 6) (rs rt : Reg) (imm : Imm16) :
    iType op rs rt imm &&& 0xFC1F0000#32 = op ++ 0#5 ++ rt ++ 0#16 := by
  refine BitVec.eq_of_getLsbD_eq fun i hi => ?_
  simp only [iType, BitVec.getLsbD_and, BitVec.getLsbD_append]
  interval_cases i <;> simp

/-- The fixed bits of a J-type row: the opcode (rule R76). -/
theorem jType_and_mask (op : BitVec 6) (index : Index26) :
    jType op index &&& 0xFC000000#32 = op ++ 0#26 := by
  refine BitVec.eq_of_getLsbD_eq fun i hi => ?_
  simp only [jType, BitVec.getLsbD_and, BitVec.getLsbD_append]
  interval_cases i <;> simp

end Sys2Proof

namespace Sys2Proof.Laws.RowMatch

/-- The word of `i` agrees with its row of the table in every bit the row fixes. -/
def Statement (i : Instr) : Prop := encode i &&& i.mask = i.matchBits

theorem add (rs : Reg) (rt : Reg) (rd : Reg) : Statement (.add rs rt rd) :=
  (rType_and_mask _ _ _ _ _).trans rfl

theorem addu (rs : Reg) (rt : Reg) (rd : Reg) : Statement (.addu rs rt rd) :=
  (rType_and_mask _ _ _ _ _).trans rfl

theorem sub (rs : Reg) (rt : Reg) (rd : Reg) : Statement (.sub rs rt rd) :=
  (rType_and_mask _ _ _ _ _).trans rfl

theorem subu (rs : Reg) (rt : Reg) (rd : Reg) : Statement (.subu rs rt rd) :=
  (rType_and_mask _ _ _ _ _).trans rfl

theorem addi (rs : Reg) (rt : Reg) (imm : Imm16) : Statement (.addi rs rt imm) :=
  (iType_and_mask _ _ _ _).trans rfl

theorem addiu (rs : Reg) (rt : Reg) (imm : Imm16) : Statement (.addiu rs rt imm) :=
  (iType_and_mask _ _ _ _).trans rfl

theorem and (rs : Reg) (rt : Reg) (rd : Reg) : Statement (.and rs rt rd) :=
  (rType_and_mask _ _ _ _ _).trans rfl

theorem or (rs : Reg) (rt : Reg) (rd : Reg) : Statement (.or rs rt rd) :=
  (rType_and_mask _ _ _ _ _).trans rfl

theorem xor (rs : Reg) (rt : Reg) (rd : Reg) : Statement (.xor rs rt rd) :=
  (rType_and_mask _ _ _ _ _).trans rfl

theorem nor (rs : Reg) (rt : Reg) (rd : Reg) : Statement (.nor rs rt rd) :=
  (rType_and_mask _ _ _ _ _).trans rfl

theorem sll (rt : Reg) (rd : Reg) (shamt : Shamt) : Statement (.sll rt rd shamt) :=
  (rType_and_mask _ _ _ _ _).trans rfl

theorem srl (rt : Reg) (rd : Reg) (shamt : Shamt) : Statement (.srl rt rd shamt) :=
  (rType_and_mask _ _ _ _ _).trans rfl

theorem sra (rt : Reg) (rd : Reg) (shamt : Shamt) : Statement (.sra rt rd shamt) :=
  (rType_and_mask _ _ _ _ _).trans rfl

theorem sllv (rs : Reg) (rt : Reg) (rd : Reg) : Statement (.sllv rs rt rd) :=
  (rType_and_mask _ _ _ _ _).trans rfl

theorem srlv (rs : Reg) (rt : Reg) (rd : Reg) : Statement (.srlv rs rt rd) :=
  (rType_and_mask _ _ _ _ _).trans rfl

theorem srav (rs : Reg) (rt : Reg) (rd : Reg) : Statement (.srav rs rt rd) :=
  (rType_and_mask _ _ _ _ _).trans rfl

theorem andi (rs : Reg) (rt : Reg) (imm : Imm16) : Statement (.andi rs rt imm) :=
  (iType_and_mask _ _ _ _).trans rfl

theorem ori (rs : Reg) (rt : Reg) (imm : Imm16) : Statement (.ori rs rt imm) :=
  (iType_and_mask _ _ _ _).trans rfl

theorem xori (rs : Reg) (rt : Reg) (imm : Imm16) : Statement (.xori rs rt imm) :=
  (iType_and_mask _ _ _ _).trans rfl

theorem mult (rs : Reg) (rt : Reg) : Statement (.mult rs rt) :=
  (rType_and_mask _ _ _ _ _).trans rfl

theorem multu (rs : Reg) (rt : Reg) : Statement (.multu rs rt) :=
  (rType_and_mask _ _ _ _ _).trans rfl

theorem div (rs : Reg) (rt : Reg) : Statement (.div rs rt) :=
  (rType_and_mask _ _ _ _ _).trans rfl

theorem divu (rs : Reg) (rt : Reg) : Statement (.divu rs rt) :=
  (rType_and_mask _ _ _ _ _).trans rfl

theorem mfhi (rd : Reg) : Statement (.mfhi rd) :=
  (rType_and_mask _ _ _ _ _).trans rfl

theorem mthi (rs : Reg) : Statement (.mthi rs) :=
  (rType_and_mask _ _ _ _ _).trans rfl

theorem mflo (rd : Reg) : Statement (.mflo rd) :=
  (rType_and_mask _ _ _ _ _).trans rfl

theorem mtlo (rs : Reg) : Statement (.mtlo rs) :=
  (rType_and_mask _ _ _ _ _).trans rfl

theorem slt (rs : Reg) (rt : Reg) (rd : Reg) : Statement (.slt rs rt rd) :=
  (rType_and_mask _ _ _ _ _).trans rfl

theorem sltu (rs : Reg) (rt : Reg) (rd : Reg) : Statement (.sltu rs rt rd) :=
  (rType_and_mask _ _ _ _ _).trans rfl

theorem slti (rs : Reg) (rt : Reg) (imm : Imm16) : Statement (.slti rs rt imm) :=
  (iType_and_mask _ _ _ _).trans rfl

theorem sltiu (rs : Reg) (rt : Reg) (imm : Imm16) : Statement (.sltiu rs rt imm) :=
  (iType_and_mask _ _ _ _).trans rfl

theorem lui (rt : Reg) (imm : Imm16) : Statement (.lui rt imm) :=
  (iType_and_mask _ _ _ _).trans rfl

theorem bltz (rs : Reg) (imm : Imm16) : Statement (.bltz rs imm) :=
  (iType_and_mask_rt _ _ _ _).trans rfl

theorem bgez (rs : Reg) (imm : Imm16) : Statement (.bgez rs imm) :=
  (iType_and_mask_rt _ _ _ _).trans rfl

theorem beq (rs : Reg) (rt : Reg) (imm : Imm16) : Statement (.beq rs rt imm) :=
  (iType_and_mask _ _ _ _).trans rfl

theorem bne (rs : Reg) (rt : Reg) (imm : Imm16) : Statement (.bne rs rt imm) :=
  (iType_and_mask _ _ _ _).trans rfl

theorem blez (rs : Reg) (imm : Imm16) : Statement (.blez rs imm) :=
  (iType_and_mask_rt _ _ _ _).trans rfl

theorem bgtz (rs : Reg) (imm : Imm16) : Statement (.bgtz rs imm) :=
  (iType_and_mask_rt _ _ _ _).trans rfl

theorem jr (rs : Reg) : Statement (.jr rs) :=
  (rType_and_mask _ _ _ _ _).trans rfl

theorem jalr (rs : Reg) (rd : Reg) : Statement (.jalr rs rd) :=
  (rType_and_mask _ _ _ _ _).trans rfl

theorem j (index : Index26) : Statement (.j index) :=
  (jType_and_mask _ _).trans rfl

theorem jal (index : Index26) : Statement (.jal index) :=
  (jType_and_mask _ _).trans rfl

theorem lb (rs : Reg) (rt : Reg) (imm : Imm16) : Statement (.lb rs rt imm) :=
  (iType_and_mask _ _ _ _).trans rfl

theorem lh (rs : Reg) (rt : Reg) (imm : Imm16) : Statement (.lh rs rt imm) :=
  (iType_and_mask _ _ _ _).trans rfl

theorem lw (rs : Reg) (rt : Reg) (imm : Imm16) : Statement (.lw rs rt imm) :=
  (iType_and_mask _ _ _ _).trans rfl

theorem lbu (rs : Reg) (rt : Reg) (imm : Imm16) : Statement (.lbu rs rt imm) :=
  (iType_and_mask _ _ _ _).trans rfl

theorem lhu (rs : Reg) (rt : Reg) (imm : Imm16) : Statement (.lhu rs rt imm) :=
  (iType_and_mask _ _ _ _).trans rfl

theorem sb (rs : Reg) (rt : Reg) (imm : Imm16) : Statement (.sb rs rt imm) :=
  (iType_and_mask _ _ _ _).trans rfl

theorem sh (rs : Reg) (rt : Reg) (imm : Imm16) : Statement (.sh rs rt imm) :=
  (iType_and_mask _ _ _ _).trans rfl

theorem sw (rs : Reg) (rt : Reg) (imm : Imm16) : Statement (.sw rs rt imm) :=
  (iType_and_mask _ _ _ _).trans rfl

end Sys2Proof.Laws.RowMatch
end

