-- ==== Sys2Proof/Laws/Pipeline.lean ====
section
/-! SUPPORT. What one clock cycle can do, said once, and what an edge, a drain and MULT's tick leave in each field. -/

namespace Sys2Proof.Machine

/-! ### Fields after an edge, a drain and a reset edge -/

@[simp] theorem PipeState.advance_rom (p : PipeState) (h : Bool) : (p.advance h).rom = p.rom := rfl
@[simp] theorem PipeState.advance_params (p : PipeState) (h : Bool) : (p.advance h).params = p.params := rfl
@[simp] theorem PipeState.advance_resetPin (p : PipeState) (h : Bool) : (p.advance h).resetPin = p.resetPin := rfl
@[simp] theorem PipeState.advance_gpr (p : PipeState) (h : Bool) : (p.advance h).gpr = p.grfNext := rfl
@[simp] theorem PipeState.advance_ram (p : PipeState) (h : Bool) : (p.advance h).ram = p.ramNext := rfl
@[simp] theorem PipeState.advance_mult (p : PipeState) (h : Bool) : (p.advance h).mult = p.multNext := rfl
@[simp] theorem PipeState.advance_true_pc (p : PipeState) : (p.advance true).pc = p.pc := rfl
@[simp] theorem PipeState.advance_true_frD (p : PipeState) : (p.advance true).frD = p.frD := rfl
@[simp] theorem PipeState.advance_true_frE (p : PipeState) : (p.advance true).frE = FRE.zero := rfl
@[simp] theorem PipeState.advance_false_pc (p : PipeState) : (p.advance false).pc = p.npcD := rfl
@[simp] theorem PipeState.advance_false_frE (p : PipeState) : (p.advance false).frE = p.freFromD := rfl
@[simp] theorem PipeState.applyReset_pc (p : PipeState) : p.applyReset.pc = 0x00003000#32 := rfl
@[simp] theorem PipeState.applyReset_ram (p : PipeState) : p.applyReset.ram = p.ram := rfl
@[simp] theorem PipeState.applyReset_rom (p : PipeState) : p.applyReset.rom = p.rom := rfl

/-- With a stop in D older instructions advance as in a stall. -/
theorem PipeState.drain_of_stopM_none {p : PipeState} (h : p.stopM = none) : p.drain = p.advance true := by
  simp [PipeState.drain, h]

/-- With a stop in M the stages D, E and M and the data memory are held. -/
theorem PipeState.drain_of_stopM {p : PipeState} {f : Fault} (h : p.stopM = some f) :
    p.drain = { p with gpr := p.grfNext, frW := FRW.zero, mult := p.mult.tick } := by
  simp [PipeState.drain, h]

/-! ### MULT -/

theorem MultUnit.tick_idle {m : MultUnit} (h : m.count = 0) : m.tick = m := by
  simp [MultUnit.tick, h]

theorem MultUnit.tick_last {m : MultUnit} (h : m.count = 1) :
    m.tick = { m with hi := m.nextHi, lo := m.nextLo, count := 0 } := by
  simp [MultUnit.tick, h]

theorem MultUnit.tick_busy {m : MultUnit} {n : Nat} (h : m.count = n + 2) : m.tick = { m with count := n + 1 } := by
  simp [MultUnit.tick, h]

/-- A tick never starts an operation: it only counts down. -/
theorem MultUnit.tick_count (m : MultUnit) : m.tick.count = m.count - 1 := by
  unfold MultUnit.tick
  split <;> simp_all

/-! ### Stops and the cycle -/

/-- A stop in D is a fault or a refusal. -/
theorem PipeState.stopD_ne_next (p q : PipeState) : p.stopD ≠ some (.next q) := by
  unfold PipeState.stopD
  split
  · simp
  · split
    · split <;> simp
    · split <;> simp

/-- A stop of the pipeline is a fault or a refusal. -/
theorem PipeState.pipeStop_ne_next (p q : PipeState) : p.pipeStop ≠ some (.next q) := by
  unfold PipeState.pipeStop
  split
  · simp
  · exact p.stopD_ne_next q

/-- Where nothing stops in the pipeline, nothing stops in M. -/
theorem PipeState.stopM_of_pipeStop_none {p : PipeState} (h : p.pipeStop = none) : p.stopM = none := by
  unfold PipeState.pipeStop at h
  split at h
  · cases h
  · assumption

/-- Everything a cycle that goes on can do: the reset edge, the edge, or a drain ahead of a stop. -/
theorem cycle_next {p q : PipeState} (h : cycle p = .next q) :
    (p.resetPin = true ∧ q = p.applyReset) ∨
    (p.resetPin = false ∧ p.pipeStop = none ∧ q = p.edge) ∨
    (p.resetPin = false ∧ (∃ r, p.pipeStop = some r) ∧ p.olderDone = false ∧ q = p.drain) := by
  unfold cycle at h
  split at h
  · rename_i hr
    cases h
    exact .inl ⟨hr, rfl⟩
  · rename_i hr
    have hr : p.resetPin = false := by simpa using hr
    split at h
    · rename_i r hs
      split at h
      · exact absurd (h ▸ hs) (p.pipeStop_ne_next q)
      · rename_i hd
        cases h
        exact .inr (.inr ⟨hr, ⟨r, hs⟩, by simpa using hd, rfl⟩)
    · rename_i hs
      cases h
      exact .inr (.inl ⟨hr, hs, rfl⟩)

/-- A cycle that stops does so where RESET is inactive and every older instruction is complete. -/
theorem cycle_stop {p : PipeState} {r : PipeResult} (h : cycle p = r) (hn : ∀ q, r ≠ .next q) :
    p.resetPin = false ∧ p.pipeStop = some r ∧ p.olderDone = true := by
  unfold cycle at h
  split at h
  · exact absurd h.symm (hn _)
  · rename_i hr
    split at h
    · split at h
      · rename_i hs hd
        exact ⟨by simpa using hr, h ▸ hs, hd⟩
      · exact absurd h.symm (hn _)
    · exact absurd h.symm (hn _)

/-- No cycle changes the ROM, the parameters or the reset input. -/
theorem cycle_fixed {p q : PipeState} (h : cycle p = .next q) :
    q.rom = p.rom ∧ q.params = p.params ∧ q.resetPin = p.resetPin := by
  obtain ⟨-, rfl⟩ | ⟨-, -, rfl⟩ | ⟨-, -, -, rfl⟩ := cycle_next h
  · exact ⟨rfl, rfl, rfl⟩
  · exact ⟨rfl, rfl, rfl⟩
  · unfold PipeState.drain
    split <;> exact ⟨rfl, rfl, rfl⟩

end Sys2Proof.Machine
end

