-- ==== Sys2Proof/Tests/Slice0.lean ====
section
/-! SUPPORT. Tests: the refusals of `WellFormed`, the encoding vectors of the spec, single steps and pipeline timing against
the vectors of `95_test_vectors.md`, and for every statement with hypotheses a state that meets them. -/

open Sys2Proof Sys2Proof.Machine

namespace Sys2Proof.Tests

/-! ### Helpers -/

/-- The next state, if there is one. -/
def next? {σ φ ρ : Type} : Host.Outcome σ φ ρ → Option σ
  | .next s => some s
  | _ => none

/-- `s` with the listed registers written. -/
def withRegs (s : State) (rs : List (Reg × Word)) : State := rs.foldl (fun s p => s.setX p.1 p.2) s

/-- `s` with the listed words in the data memory. -/
def withMem (s : State) (ws : List (Word × Word)) : State := ws.foldl (fun s p => s.memWrite p.1 4 p.2) s

/-- `s` with these words in the ROM from 0x3000. -/
def withProgram (s : State) (ws : List Word) : State :=
  { s with rom := romPutBytes [] 0x3000 (ws.flatMap bytesOfWord) }

/-- The machine after reset with `w` at `pc` and the listed registers and memory words. -/
def at_ (w : Word) (rs : List (Reg × Word)) (ws : List (Word × Word)) : State :=
  withMem (withRegs (withProgram State.reset [w]) rs) ws

/-- One step from `s` goes on, and `p` holds after it. -/
def stepGives (s : State) (p : State → Bool) : Bool := ((next? (step s)).map p).getD false

/-- The pipeline after reset with these words in the ROM. -/
def pipe (ws : List Word) : PipeState := { PipeState.reset with rom := (withProgram State.reset ws).rom }

/-- The number of stall cycles in the first `k` cycles. -/
def stalls : Nat → PipeState → Nat
  | 0, _ => 0
  | k + 1, p => (if p.stall then 1 else 0) + match cycle p with | .next q => stalls k q | _ => 0

/-! ### WellFormed refuses each ill-formed choice of the parameters -/

theorem test_params_default : Params.default.wellFormed = true := by decide
theorem test_params_im_misaligned : { Params.default with imBase := 0x2FFE }.wellFormed = false := by decide
theorem test_params_im_misaligned_by : { Params.default with imBase := 0x2FFE }.imAligned = false := by decide
theorem test_params_no_reset_vector : { Params.default with imBase := 0x3004 }.wellFormed = false := by decide
theorem test_params_no_reset_vector_by : { Params.default with imBase := 0x3004 }.imHoldsReset = false := by decide
theorem test_params_im_wraps : { Params.default with imSize := 0xFFFFE000 }.wellFormed = false := by decide
theorem test_params_im_wraps_by : { Params.default with imSize := 0xFFFFE000 }.imNoWrap = false := by decide
theorem test_params_dm_misaligned : { Params.default with dmSize := 6 }.wellFormed = false := by decide
theorem test_params_dm_misaligned_by : { Params.default with dmSize := 6 }.dmAligned = false := by decide
theorem test_params_dm_wraps : { Params.default with dmBase := 0xFFFFFFFC, dmSize := 8 }.wellFormed = false := by decide
theorem test_params_dm_wraps_by : { Params.default with dmBase := 0xFFFFFFFC, dmSize := 8 }.dmNoWrap = false := by decide
theorem test_params_halt_outside : { Params.default with haltPC := some 0x7000#32 }.wellFormed = false := by decide
theorem test_params_halt_outside_by : { Params.default with haltPC := some 0x7000#32 }.haltInside = false := by decide

/-! ### Encoding vectors (`95_test_vectors.md` section 2) -/

theorem test_decode_add : decodeTableWord 32 0x00221820 = some (.add 1 2 3) ∧ encode (.add 1 2 3) = 0x00221820#32 := by decide
theorem test_decode_addu : decodeTableWord 32 0x00853021 = some (.addu 4 5 6) ∧ encode (.addu 4 5 6) = 0x00853021#32 := by decide
theorem test_decode_sub : decodeTableWord 32 0x00E84822 = some (.sub 7 8 9) ∧ encode (.sub 7 8 9) = 0x00E84822#32 := by decide
theorem test_decode_subu : decodeTableWord 32 0x014B6023 = some (.subu 10 11 12) ∧ encode (.subu 10 11 12) = 0x014B6023#32 := by decide
theorem test_decode_addi : decodeTableWord 32 0x21AEFFFF = some (.addi 13 14 0xffff) ∧ encode (.addi 13 14 0xffff) = 0x21AEFFFF#32 := by decide
theorem test_decode_addiu : decodeTableWord 32 0x25F07FFF = some (.addiu 15 16 0x7fff) ∧ encode (.addiu 15 16 0x7fff) = 0x25F07FFF#32 := by decide
theorem test_decode_and : decodeTableWord 32 0x02329824 = some (.and 17 18 19) ∧ encode (.and 17 18 19) = 0x02329824#32 := by decide
theorem test_decode_or : decodeTableWord 32 0x0295B025 = some (.or 20 21 22) ∧ encode (.or 20 21 22) = 0x0295B025#32 := by decide
theorem test_decode_xor : decodeTableWord 32 0x02F8C826 = some (.xor 23 24 25) ∧ encode (.xor 23 24 25) = 0x02F8C826#32 := by decide
theorem test_decode_nor : decodeTableWord 32 0x035BE027 = some (.nor 26 27 28) ∧ encode (.nor 26 27 28) = 0x035BE027#32 := by decide
theorem test_decode_sll : decodeTableWord 32 0x00011100 = some (.sll 1 2 4) ∧ encode (.sll 1 2 4) = 0x00011100#32 := by decide
theorem test_decode_srl : decodeTableWord 32 0x000327C2 = some (.srl 3 4 31) ∧ encode (.srl 3 4 31) = 0x000327C2#32 := by decide
theorem test_decode_sra : decodeTableWord 32 0x00053043 = some (.sra 5 6 1) ∧ encode (.sra 5 6 1) = 0x00053043#32 := by decide
theorem test_decode_sllv : decodeTableWord 32 0x00E84804 = some (.sllv 7 8 9) ∧ encode (.sllv 7 8 9) = 0x00E84804#32 := by decide
theorem test_decode_srlv : decodeTableWord 32 0x014B6006 = some (.srlv 10 11 12) ∧ encode (.srlv 10 11 12) = 0x014B6006#32 := by decide
theorem test_decode_srav : decodeTableWord 32 0x01AE7807 = some (.srav 13 14 15) ∧ encode (.srav 13 14 15) = 0x01AE7807#32 := by decide
theorem test_decode_andi : decodeTableWord 32 0x3211FF00 = some (.andi 16 17 0xff00) ∧ encode (.andi 16 17 0xff00) = 0x3211FF00#32 := by decide
theorem test_decode_ori : decodeTableWord 32 0x36538001 = some (.ori 18 19 0x8001) ∧ encode (.ori 18 19 0x8001) = 0x36538001#32 := by decide
theorem test_decode_xori : decodeTableWord 32 0x3A95FFFF = some (.xori 20 21 0xffff) ∧ encode (.xori 20 21 0xffff) = 0x3A95FFFF#32 := by decide
theorem test_decode_slt : decodeTableWord 32 0x02D7C02A = some (.slt 22 23 24) ∧ encode (.slt 22 23 24) = 0x02D7C02A#32 := by decide
theorem test_decode_sltu : decodeTableWord 32 0x033AD82B = some (.sltu 25 26 27) ∧ encode (.sltu 25 26 27) = 0x033AD82B#32 := by decide
theorem test_decode_slti : decodeTableWord 32 0x2B9D8000 = some (.slti 28 29 0x8000) ∧ encode (.slti 28 29 0x8000) = 0x2B9D8000#32 := by decide
theorem test_decode_sltiu : decodeTableWord 32 0x2FDFFFFF = some (.sltiu 30 31 0xffff) ∧ encode (.sltiu 30 31 0xffff) = 0x2FDFFFFF#32 := by decide
theorem test_decode_lui : decodeTableWord 32 0x3C01ABCD = some (.lui 1 0xabcd) ∧ encode (.lui 1 0xabcd) = 0x3C01ABCD#32 := by decide
theorem test_decode_mult : decodeTableWord 32 0x00430018 = some (.mult 2 3) ∧ encode (.mult 2 3) = 0x00430018#32 := by decide
theorem test_decode_multu : decodeTableWord 32 0x00850019 = some (.multu 4 5) ∧ encode (.multu 4 5) = 0x00850019#32 := by decide
theorem test_decode_div : decodeTableWord 32 0x00C7001A = some (.div 6 7) ∧ encode (.div 6 7) = 0x00C7001A#32 := by decide
theorem test_decode_divu : decodeTableWord 32 0x0109001B = some (.divu 8 9) ∧ encode (.divu 8 9) = 0x0109001B#32 := by decide
theorem test_decode_mfhi : decodeTableWord 32 0x00005010 = some (.mfhi 10) ∧ encode (.mfhi 10) = 0x00005010#32 := by decide
theorem test_decode_mthi : decodeTableWord 32 0x01600011 = some (.mthi 11) ∧ encode (.mthi 11) = 0x01600011#32 := by decide
theorem test_decode_mflo : decodeTableWord 32 0x00006012 = some (.mflo 12) ∧ encode (.mflo 12) = 0x00006012#32 := by decide
theorem test_decode_mtlo : decodeTableWord 32 0x01A00013 = some (.mtlo 13) ∧ encode (.mtlo 13) = 0x01A00013#32 := by decide
theorem test_decode_bltz : decodeTableWord 32 0x04200003 = some (.bltz 1 0x3) ∧ encode (.bltz 1 0x3) = 0x04200003#32 := by decide
theorem test_decode_bgez : decodeTableWord 32 0x0441FFFF = some (.bgez 2 0xffff) ∧ encode (.bgez 2 0xffff) = 0x0441FFFF#32 := by decide
theorem test_decode_beq : decodeTableWord 32 0x10640000 = some (.beq 3 4 0x0) ∧ encode (.beq 3 4 0x0) = 0x10640000#32 := by decide
theorem test_decode_bne : decodeTableWord 32 0x14A6FFFD = some (.bne 5 6 0xfffd) ∧ encode (.bne 5 6 0xfffd) = 0x14A6FFFD#32 := by decide
theorem test_decode_blez : decodeTableWord 32 0x18E0003F = some (.blez 7 0x3f) ∧ encode (.blez 7 0x3f) = 0x18E0003F#32 := by decide
theorem test_decode_bgtz : decodeTableWord 32 0x1D000001 = some (.bgtz 8 0x1) ∧ encode (.bgtz 8 0x1) = 0x1D000001#32 := by decide
theorem test_decode_jr : decodeTableWord 32 0x03E00008 = some (.jr 31) ∧ encode (.jr 31) = 0x03E00008#32 := by decide
theorem test_decode_jalr : decodeTableWord 32 0x0120F809 = some (.jalr 9 31) ∧ encode (.jalr 9 31) = 0x0120F809#32 := by decide
theorem test_decode_jalr_2 : decodeTableWord 32 0x00602809 = some (.jalr 3 5) ∧ encode (.jalr 3 5) = 0x00602809#32 := by decide
theorem test_decode_j : decodeTableWord 32 0x08000C10 = some (.j 0xc10) ∧ encode (.j 0xc10) = 0x08000C10#32 := by decide
theorem test_decode_jal : decodeTableWord 32 0x0C001BFF = some (.jal 0x1bff) ∧ encode (.jal 0x1bff) = 0x0C001BFF#32 := by decide
theorem test_decode_lb : decodeTableWord 32 0x8022FFFF = some (.lb 1 2 0xffff) ∧ encode (.lb 1 2 0xffff) = 0x8022FFFF#32 := by decide
theorem test_decode_lh : decodeTableWord 32 0x84640002 = some (.lh 3 4 0x2) ∧ encode (.lh 3 4 0x2) = 0x84640002#32 := by decide
theorem test_decode_lw : decodeTableWord 32 0x8CA67FFC = some (.lw 5 6 0x7ffc) ∧ encode (.lw 5 6 0x7ffc) = 0x8CA67FFC#32 := by decide
theorem test_decode_lbu : decodeTableWord 32 0x90E80003 = some (.lbu 7 8 0x3) ∧ encode (.lbu 7 8 0x3) = 0x90E80003#32 := by decide
theorem test_decode_lhu : decodeTableWord 32 0x952AFFFE = some (.lhu 9 10 0xfffe) ∧ encode (.lhu 9 10 0xfffe) = 0x952AFFFE#32 := by decide
theorem test_decode_sb : decodeTableWord 32 0xA16C0001 = some (.sb 11 12 0x1) ∧ encode (.sb 11 12 0x1) = 0xA16C0001#32 := by decide
theorem test_decode_sh : decodeTableWord 32 0xA5AE0006 = some (.sh 13 14 0x6) ∧ encode (.sh 13 14 0x6) = 0xA5AE0006#32 := by decide
theorem test_decode_sw : decodeTableWord 32 0xADF08000 = some (.sw 15 16 0x8000) ∧ encode (.sw 15 16 0x8000) = 0xADF08000#32 := by decide

/-! ### Words with non-zero ignored fields, and words of no row (sections 2.1, 2.2) -/

theorem test_ignored_fields :
    decodeWord 0x03E10880#32 = .instr (.sll 1 1 2) ∧
      decodeWord 0x03E0F808#32 = .instr (.jr 31) ∧
      decodeWord 0x0043FFD8#32 = .instr (.mult 2 3) ∧
      decodeWord 0x03FF2810#32 = .instr (.mfhi 5) ∧
      decodeWord 0x3FE1ABCD#32 = .instr (.lui 1 0xabcd) ∧
      decodeWord 0x00430FE1#32 = .instr (.addu 2 3 1) ∧
      decodeWord 0x007F2809#32 = .instr (.jalr 3 5) := by decide

theorem test_unrecognised :
    [0xFFFFFFFF, 0x0000000C, 0x0000000D, 0x00000001, 0x0000000A, 0x0000000F, 0x00221028, 0x0022103F, 0x04100000, 0x04020000, 0x041F0000,
      0x18010000, 0x1C1F0000, 0x40000000, 0x50000000, 0x70000002, 0x88000000, 0x98000000, 0xA8000000, 0xBC000000, 0xC0000000].all (fun w => (decodeTableWord 32 w).isNone) = true := by decide

/-! ### One step of every instruction (sections 3 to 9) -/

theorem test_add :
    stepGives (at_ 0x00221820 [(1, 0x80000000), (2, 0x80000000)] []) (fun t => t.x 3 == 0x00000000) = true := by decide
theorem test_addu :
    stepGives (at_ 0x00221821 [(1, 0xFFFFFFFF), (2, 0x00000001), (3, 0x00000055)] []) (fun t => t.x 3 == 0x00000000) = true := by decide
theorem test_sub :
    stepGives (at_ 0x00221822 [(1, 0x80000000), (2, 0x00000001)] []) (fun t => t.x 3 == 0x7FFFFFFF) = true := by decide
theorem test_subu :
    stepGives (at_ 0x00211823 [(1, 0xDEADBEEF), (3, 0x00000007)] []) (fun t => t.x 3 == 0x00000000) = true := by decide
theorem test_addi :
    stepGives (at_ 0x20220001 [(1, 0x7FFFFFFF)] []) (fun t => t.x 2 == 0x80000000) = true := by decide
theorem test_addiu :
    stepGives (at_ 0x24228000 [(1, 0x00010000)] []) (fun t => t.x 2 == 0x00008000) = true := by decide
theorem test_and :
    stepGives (at_ 0x00221824 [(1, 0xF0F0A5A5), (2, 0x0FF0FFFF)] []) (fun t => t.x 3 == 0x00F0A5A5) = true := by decide
theorem test_or :
    stepGives (at_ 0x00201825 [(1, 0x12345678)] []) (fun t => t.x 3 == 0x12345678) = true := by decide
theorem test_xor :
    stepGives (at_ 0x00211826 [(1, 0x12345678), (3, 0x00000009)] []) (fun t => t.x 3 == 0x00000000) = true := by decide
theorem test_nor :
    stepGives (at_ 0x00001827 [] []) (fun t => t.x 3 == 0xFFFFFFFF) = true := by decide
theorem test_sll :
    stepGives (at_ 0x00011040 [(1, 0x80000001)] []) (fun t => t.x 2 == 0x00000002) = true := by decide
theorem test_srl :
    stepGives (at_ 0x00011102 [(1, 0xF0000000)] []) (fun t => t.x 2 == 0x0F000000) = true := by decide
theorem test_sra :
    stepGives (at_ 0x000117C3 [(1, 0x80000000)] []) (fun t => t.x 2 == 0xFFFFFFFF) = true := by decide
theorem test_sra_2 :
    stepGives (at_ 0x00011003 [(1, 0x80000000)] []) (fun t => t.x 2 == 0x80000000) = true := by decide
theorem test_sllv :
    stepGives (at_ 0x00411804 [(1, 0x00000001), (2, 0x00000020)] []) (fun t => t.x 3 == 0x00000001) = true := by decide
theorem test_srlv :
    stepGives (at_ 0x00411806 [(1, 0x80000000), (2, 0x0000001F)] []) (fun t => t.x 3 == 0x00000001) = true := by decide
theorem test_srav :
    stepGives (at_ 0x00411807 [(1, 0x80000000), (2, 0xFFFFFFE0)] []) (fun t => t.x 3 == 0x80000000) = true := by decide
theorem test_srav_2 :
    stepGives (at_ 0x00211807 [(1, 0x80000004)] []) (fun t => t.x 3 == 0xF8000000) = true := by decide
theorem test_andi :
    stepGives (at_ 0x30228000 [(1, 0xFFFF8000)] []) (fun t => t.x 2 == 0x00008000) = true := by decide
theorem test_ori :
    stepGives (at_ 0x3402FFFF [] []) (fun t => t.x 2 == 0x0000FFFF) = true := by decide
theorem test_xori :
    stepGives (at_ 0x38220000 [(1, 0xCAFEBABE)] []) (fun t => t.x 2 == 0xCAFEBABE) = true := by decide
theorem test_mult :
    stepGives (at_ 0x00220018 [(1, 0xFFFFFFFF), (2, 0xFFFFFFFF)] []) (fun t => t.hi == 0x00000000 && t.lo == 0x00000001) = true := by decide
theorem test_mult_2 :
    stepGives (at_ 0x00210018 [(1, 0x00010000)] []) (fun t => t.hi == 0x00000001 && t.lo == 0x00000000) = true := by decide
theorem test_multu :
    stepGives (at_ 0x00220019 [(1, 0xFFFFFFFF), (2, 0x00000001)] []) (fun t => t.hi == 0x00000000 && t.lo == 0xFFFFFFFF) = true := by decide
theorem test_div :
    stepGives (at_ 0x0022001A [(1, 0xFFFFFFF9), (2, 0x00000002)] []) (fun t => t.hi == 0xFFFFFFFF && t.lo == 0xFFFFFFFD) = true := by decide
theorem test_div_2 :
    stepGives (at_ 0x0022001A [(1, 0x7FFFFFFF), (2, 0xFFFFFFFF)] []) (fun t => t.hi == 0x00000000 && t.lo == 0x80000001) = true := by decide
theorem test_divu :
    stepGives (at_ 0x0022001B [(1, 0xFFFFFFFF), (2, 0xFFFFFFFF)] []) (fun t => t.hi == 0x00000000 && t.lo == 0x00000001) = true := by decide
theorem test_mfhi :
    stepGives { at_ 0x00001810 [] [] with hi := 0x11111111, lo := 0x22222222 } (fun t => t.x 3 == 0x11111111) = true := by decide
theorem test_mthi :
    stepGives { at_ 0x00000011 [] [] with hi := 0x11111111, lo := 0x22222222 } (fun t => t.hi == 0x00000000 && t.lo == 0x22222222) = true := by decide
theorem test_mflo :
    stepGives { at_ 0x00001812 [] [] with hi := 0x11111111, lo := 0x22222222 } (fun t => t.x 3 == 0x22222222) = true := by decide
theorem test_mtlo :
    stepGives { at_ 0x00200013 [(1, 0xCAFEBABE)] [] with hi := 0x11111111, lo := 0x22222222 } (fun t => t.hi == 0x11111111 && t.lo == 0xCAFEBABE) = true := by decide
theorem test_slt :
    stepGives (at_ 0x0022182A [(1, 0x80000000), (2, 0x7FFFFFFF)] []) (fun t => t.x 3 == 0x00000001) = true := by decide
theorem test_slt_2 :
    stepGives (at_ 0x0022182A [(1, 0x00000005), (2, 0x00000005), (3, 0x00000007)] []) (fun t => t.x 3 == 0x00000000) = true := by decide
theorem test_sltu :
    stepGives (at_ 0x0001182B [(1, 0x00000001)] []) (fun t => t.x 3 == 0x00000001) = true := by decide
theorem test_slti :
    stepGives (at_ 0x28227FFF [(1, 0x00007FFE)] []) (fun t => t.x 2 == 0x00000001) = true := by decide
theorem test_sltiu :
    stepGives (at_ 0x2C22FFFF [(1, 0xFFFFFFFF), (2, 0x00000007)] []) (fun t => t.x 2 == 0x00000000) = true := by decide
theorem test_sltiu_2 :
    stepGives (at_ 0x2C220001 [(1, 0x00000000)] []) (fun t => t.x 2 == 0x00000001) = true := by decide
theorem test_lui :
    stepGives (at_ 0x3C010000 [(1, 0x12345678)] []) (fun t => t.x 1 == 0x00000000) = true := by decide
theorem test_bltz :
    stepGives (at_ 0x04200003 [(1, 0x80000000)] []) (fun t => t.npc == 0x00003010) = true := by decide
theorem test_bltz_2 :
    stepGives (at_ 0x04200003 [(1, 0x7FFFFFFF)] []) (fun t => t.npc == 0x00003008) = true := by decide
theorem test_bgez :
    stepGives (at_ 0x04210003 [(1, 0x7FFFFFFF)] []) (fun t => t.npc == 0x00003010) = true := by decide
theorem test_bgez_2 :
    stepGives (at_ 0x04210003 [(1, 0x80000000)] []) (fun t => t.npc == 0x00003008) = true := by decide
theorem test_beq :
    stepGives (at_ 0x10008000 [] []) (fun t => t.npc == 0xFFFE3004) = true := by decide
theorem test_beq_2 :
    stepGives (at_ 0x10000001 [] []) (fun t => t.npc == 0x00003008) = true := by decide
theorem test_bne :
    stepGives (at_ 0x14220003 [(1, 0x80000000), (2, 0x00000000)] []) (fun t => t.npc == 0x00003010) = true := by decide
theorem test_bne_2 :
    stepGives (at_ 0x14000003 [] []) (fun t => t.npc == 0x00003008) = true := by decide
theorem test_blez :
    stepGives (at_ 0x18200003 [(1, 0x80000000)] []) (fun t => t.npc == 0x00003010) = true := by decide
theorem test_blez_2 :
    stepGives (at_ 0x18200003 [(1, 0x7FFFFFFF)] []) (fun t => t.npc == 0x00003008) = true := by decide
theorem test_bgtz :
    stepGives (at_ 0x1C200003 [(1, 0x7FFFFFFF)] []) (fun t => t.npc == 0x00003010) = true := by decide
theorem test_bgtz_2 :
    stepGives (at_ 0x1C200003 [(1, 0x80000000)] []) (fun t => t.npc == 0x00003008) = true := by decide
theorem test_jr :
    stepGives (at_ 0x00200008 [(1, 0x00006FFC)] []) (fun t => t.npc == 0x00006FFC) = true := by decide
theorem test_jalr :
    stepGives (at_ 0x00601809 [(3, 0x00003020)] []) (fun t => t.x 3 == 0x00003008 && t.npc == 0x00003020) = true := by decide
theorem test_j :
    stepGives (at_ 0x0BFFFFFF [] []) (fun t => t.npc == 0x0FFFFFFC) = true := by decide
theorem test_jal :
    stepGives (at_ 0x0C000C00 [(31, 0x00001234)] []) (fun t => t.x 31 == 0x00003008 && t.npc == 0x00003000) = true := by decide
theorem test_lb :
    stepGives (at_ 0x80220001 [(1, 0x00000100)] [(0x00000100, 0x80FF7F01)]) (fun t => t.x 2 == 0x0000007F) = true := by decide
theorem test_lb_2 :
    stepGives (at_ 0x8022FFFF [(1, 0x00000104)] [(0x00000100, 0x80FF7F01)]) (fun t => t.x 2 == 0xFFFFFF80) = true := by decide
theorem test_lh :
    stepGives (at_ 0x84220002 [(1, 0x00000100)] [(0x00000100, 0x80FF7F01)]) (fun t => t.x 2 == 0xFFFF80FF) = true := by decide
theorem test_lw :
    stepGives (at_ 0x8C020100 [] [(0x00000100, 0x80FF7F01)]) (fun t => t.x 2 == 0x80FF7F01) = true := by decide
theorem test_lbu :
    stepGives (at_ 0x90220002 [(1, 0x00000100)] [(0x00000100, 0x80FF7F01)]) (fun t => t.x 2 == 0x000000FF) = true := by decide
theorem test_lhu :
    stepGives (at_ 0x94220002 [(1, 0x00000100)] [(0x00000100, 0x80FF7F01)]) (fun t => t.x 2 == 0x000080FF) = true := by decide
theorem test_sb :
    stepGives (at_ 0xA0220001 [(1, 0x00000100), (2, 0x12345678)] [(0x00000100, 0xDDCCBBAA)]) (fun t => ramWord t.ram 0x00000100 == 0xDDCC78AA) = true := by decide
theorem test_sb_2 :
    stepGives (at_ 0xA0222FFF [(1, 0x00000000), (2, 0x000000EE)] []) (fun t => ramWord t.ram 0x00002FFC == 0xEE000000) = true := by decide
theorem test_sh :
    stepGives (at_ 0xA4220002 [(1, 0x00000100), (2, 0x12345678)] [(0x00000100, 0xDDCCBBAA)]) (fun t => ramWord t.ram 0x00000100 == 0x5678BBAA) = true := by decide
theorem test_sw :
    stepGives (at_ 0xAC200000 [(1, 0x00000100)] [(0x00000100, 0xDDCCBBAA)]) (fun t => ramWord t.ram 0x00000100 == 0x00000000) = true := by decide

/-! ### Stops (section 10), reset, and the end of a run -/

theorem test_fetch_past_program : step (withProgram { State.reset with pc := 0x3004 } [0]) =
    .fault (.outsideInstructionMemory 0x3004) := rfl
theorem test_unrecognised_refused : step (withProgram State.reset [0xFFFFFFFF]) =
    .refused (.unrecognisedInstruction 0xFFFFFFFF) := rfl
theorem test_unrecognised_as_nop :
    stepGives { withProgram State.reset [0xFFFFFFFF] with params := { Params.default with illegalAsNop := true } }
      (fun t => t.pc == 0x3004 && t.npc == 0x3008) = true := by decide
theorem test_branch_in_delay_slot :
    ((next? (step (withProgram State.reset [0x10000001, 0x08000C00]))).map
      (fun t => match step t with | .refused r => decide (r = .controlTransferInDelaySlot) | _ => false)) = some true := by
  decide
theorem test_lw_misaligned : step (at_ 0x8C010002 [] []) = .fault (.misalignedDataAccess 2) := rfl
theorem test_lw_outside : step (at_ 0x8C013000 [] []) = .fault (.outsideDataMemory 0x3000) := rfl
theorem test_jr_misaligned : step (at_ 0x00200008 [(1, 0x3002)] []) =
    .fault (.misalignedInstructionAddress 0x3002) := rfl
theorem test_reset_from_nowhere :
    stepGives { State.reset with pc := 5, hi := 7, resetPin := true } (fun t => t.pc == 0x3000 && t.hi == 0) = true := by
  decide
theorem test_div_by_zero_completes : stepGives (at_ 0x0020001A [] []) (fun t => t.pc == 0x3004) = true := by decide

/-- The example ending of rule R248: the run ends at `HALT_PC`. -/
theorem test_halt : (match runToHalt 5 { withProgram State.reset [0x24010005, 0x1000FFFF, 0] with
      params := { Params.default with haltPC := some 0x3004#32 } } with
    | .halted s => s.x 1 == 5 && s.pc == 0x3004 | _ => false) = true := by decide

/-! ### Pipeline timing (section 12) -/


theorem test_timing_load_branch : stalls 9 (pipe ([0x8C010000, 0x10200001, 0] ++ List.replicate 9 0)) = 2 := by decide
theorem test_timing_load_use : stalls 7 (pipe ([0x8C010000, 0x00211021] ++ List.replicate 7 0)) = 1 := by decide
theorem test_timing_load_store_data : stalls 6 (pipe ([0x8C010000, 0xAC010004] ++ List.replicate 6 0)) = 0 := by decide
theorem test_timing_alu_branch : stalls 8 (pipe ([0x00430821, 0x10200001, 0] ++ List.replicate 8 0)) = 1 := by decide
theorem test_timing_lui_branch : stalls 7 (pipe ([0x3C010001, 0x10200001, 0] ++ List.replicate 7 0)) = 0 := by decide
theorem test_timing_mult_mflo : stalls 12 (pipe ([0x00220018, 0x00001812] ++ List.replicate 12 0)) = 6 := by decide
theorem test_timing_div_mfhi : stalls 17 (pipe ([0x0022001A, 0x00001810] ++ List.replicate 17 0)) = 11 := by decide
theorem test_timing_ignored_rs : stalls 7 (pipe ([0x8C010000, 0x00231100] ++ List.replicate 7 0)) = 1 := by decide
theorem test_pipe_mult_mflo :
    ((next? (pipelineMachine.run 12 (pipe ([0x24010007, 0x00210018, 0x00001812] ++ List.replicate 12 0)))).map
      (fun q : PipeState => q.mult.lo)) = some 49 := by decide

/-- The bubble FR_D holds at reset shows a write of register 0 in cycle 3 and is no event; the nop after it is (rule R242). -/
theorem test_reset_bubble_is_no_event :
    ((next? (pipelineMachine.run 3 (pipe [0]))).map
      (fun q : PipeState => (q.ports.wGrfWe, q.ports.wGrfAddr, q.ports.wGrfWdata))) = some (true, 0#5, 0#32) ∧
    (pipe [0]).trace 4 = [] ∧ (pipe [0]).trace 5 = [.regWrite 0 0] ∧ (pipe [0]).retired 5 = [0x3000] := by decide

/-- A jump that stops lets the older instruction write its register first (rule R262). -/
theorem test_stop_after_older_instructions :
    (pipe [0x24013002, 0x00200008, 0]).trace 5 = [.regWrite 1 0x3002] ∧
    pipelineMachine.run 6 (pipe [0x24013002, 0x00200008, 0]) = .fault (.misalignedInstructionAddress 0x3002) :=
  ⟨by decide, rfl⟩

/-- lw that stops in M while the store before it is in W and a younger store is in E: only the first store is done. -/
theorem test_stop_in_M :
    (stores ((pipe [0xAC000000, 0x8C010002, 0xAC000004, 0]).trace 9)).map (fun e => (e.1, e.2.1)) = [(0, 0xF)] ∧
    pipelineMachine.run 9 (pipe [0xAC000000, 0x8C010002, 0xAC000004, 0]) = .fault (.misalignedDataAccess 2) :=
  ⟨by decide, rfl⟩


/-! ### Witnesses: for every statement with hypotheses, a case that meets them all, clause by clause

The hypotheses on a word's fields in `DecodesSpecial`, `DecodesPrimary`, `DecodesWithRt` are met by the words of the decode
tests above. -/

/-- A data window that does not start at 0, for the lower boundary. -/
def highWindow : State := { State.reset with params := { Params.default with dmBase := 0x10, dmSize := 0x20 } }

/-- The machine in a delay slot. -/
def inSlot : State := { State.reset with delaySlot := true }

/-- The state after `k` cycles, where the pipeline goes on that long. -/
def after (k : Nat) (ws : List Word) : PipeState := (next? (pipelineMachine.run k (pipe ws))).getD PipeState.reset

/-- `k` cycles from `p` go on, none with a stop in M. -/
def goes : Nat → PipeState → Bool
  | 0, _ => true
  | k + 1, p => p.stopM.isNone && match cycle p with | .next q => goes k q | _ => false

theorem runsTo_of_goes : ∀ {k : Nat} {p : PipeState}, goes k p = true → ∃ q, p.runsTo k q
  | 0, p, _ => ⟨p, rfl⟩
  | k + 1, p, h => by
    simp only [goes, Bool.and_eq_true] at h
    obtain ⟨hm, h⟩ := h
    split at h
    · rename_i q hq
      obtain ⟨r, hr⟩ := runsTo_of_goes h
      exact ⟨r, q, by simpa using hm, hq, hr⟩
    · cases h

theorem witness_DecodeInvertsEncode : (Instr.jal 0x3FFFFFF).wellFormed = true ∧ (Instr.sw 31 31 0xFFFF).wellFormed = true := by
  decide
theorem witness_DecodeAgreesWithOpcodeTable_row : decodeWord 0x00221820#32 = .instr (.add 1 2 3) := rfl
theorem witness_DecodeAgreesWithOpcodeTable_none : ∃ e, decodeWord 0xFFFFFFFF#32 = .rejected e := ⟨_, rfl⟩
theorem witness_RegimmSelectedByRt : fOpcode 0x04200003#32 = 0b000001#6 ∧ fRt 0x04200003#32 = 0#5 ∧
    fOpcode 0x0441FFFF#32 = 0b000001#6 ∧ fRt 0x0441FFFF#32 = 1#5 ∧
    fOpcode 0x04220003#32 = 0b000001#6 ∧ fRt 0x04220003#32 = 2#5 ∧ fRt 0x043F0003#32 = 31#5 := by decide
theorem witness_RecognitionReadsOpcodeFunctRt_sameRt : decodeWord 0x04200003#32 = .instr (.bltz 1 3) ∧
    fOpcode 0x0740F803#32 = fOpcode 0x04200003#32 ∧ fFunct 0x0740F803#32 = fFunct 0x04200003#32 ∧
    fRt 0x0740F803#32 = fRt 0x04200003#32 := by decide
theorem witness_RecognitionReadsOpcodeFunctRt_anyRt : decodeWord 0x00221820#32 = .instr (.add 1 2 3) ∧
    fOpcode 0x03FFFFE0#32 = fOpcode 0x00221820#32 ∧ fFunct 0x03FFFFE0#32 = fFunct 0x00221820#32 ∧
    fOpcode 0x00221820#32 ≠ 0b000001#6 ∧ fOpcode 0x00221820#32 ≠ 0b000110#6 ∧ fOpcode 0x00221820#32 ≠ 0b000111#6 := by decide
theorem witness_StepRunsDecodedInstruction : (Instr.lui 1 0xABCD).wellFormed = true ∧
    (at_ 0x3C01ABCD [] []).AtInstr (.lui 1 0xABCD) :=
  ⟨rfl, rfl, rfl, by decide, by decide, _, _, _, _, rfl, rfl, rfl, rfl, rfl⟩
theorem witness_ResetOverridesEverything : { State.reset with pc := 5, resetPin := true }.resetPin = true := rfl
theorem witness_RegisterFile_write : (31#5 : Reg) ≠ 0#5 ∧ (0#5 : Reg) ≠ 31#5 := by decide
theorem witness_RegisterFile_same : ∀ r : Reg, r ≠ 0#5 → { State.reset with pc := 0x3004 }.x r = State.reset.x r :=
  fun _ _ => rfl
theorem witness_UnrecognisedWordStops_refused : ∃ e, (at_ 0xFFFFFFFF [] []).resetPin = false ∧
    fetchWord Params.default (at_ 0xFFFFFFFF [] []).rom 0x3000 = .word 0xFFFFFFFF ∧
    decodeWord 0xFFFFFFFF = .rejected e ∧ (at_ 0xFFFFFFFF [] []).params.illegalAsNop = false := ⟨_, rfl, rfl, rfl, rfl⟩
theorem witness_UnrecognisedWordStops_nop : ∃ e, ({ Params.default with illegalAsNop := true } : Params).illegalAsNop = true ∧
    fetchWord { Params.default with illegalAsNop := true } (at_ 0x00000001 [] []).rom 0x3000 = .word 0x00000001 ∧
    decodeWord 0x00000001 = .rejected e := ⟨_, rfl, rfl, rfl⟩
theorem witness_FetchStops_below : { State.reset with pc := 0x2FFF }.resetPin = false ∧
    ({ State.reset with pc := 0x2FFF } : State).pc.toNat < State.reset.params.imBase := by decide
theorem witness_FetchStops_end : State.reset.resetPin = false ∧
    State.reset.params.imBase + State.reset.params.imSize ≤ ({ State.reset with pc := 0x7000 } : State).pc.toNat := by decide
theorem witness_FetchStops_noWord : State.reset.resetPin = false ∧ romWord State.reset.rom State.reset.pc = none := by decide
theorem witness_FetchStops_misaligned : State.reset.params.imBase ≤ (0x3003#32).toNat ∧
    (0x3003#32).toNat < State.reset.params.imBase + State.reset.params.imSize ∧
    romWord (at_ 0 [] []).rom 0x3003#32 ≠ none ∧ (0x3003#32).toNat % 4 ≠ 0 := by decide
theorem witness_TransferInDelaySlotRefused : Instr.isControlTransfer (.bgtz 1 0) = true ∧ inSlot.delaySlot = true := by decide
theorem witness_IllegalDataAccessFaults_half : (State.reset.effectiveAddress 0 0x2FFF).toNat % 2 ≠ 0 := by decide
theorem witness_IllegalDataAccessFaults_word : (State.reset.effectiveAddress 0 0x2FFE).toNat % 4 ≠ 0 := by decide
theorem witness_IllegalDataAccessFaults_byteOutside :
    State.reset.params.dmBase + State.reset.params.dmSize < (State.reset.effectiveAddress 0 0x3000).toNat + 1 ∧
    (highWindow.effectiveAddress 0 0xF).toNat < highWindow.params.dmBase := by decide
theorem witness_IllegalDataAccessFaults_halfOutside : (State.reset.effectiveAddress 0 0x3000).toNat % 2 = 0 ∧
    State.reset.params.dmBase + State.reset.params.dmSize < (State.reset.effectiveAddress 0 0x3000).toNat + 2 ∧
    (highWindow.effectiveAddress 0 0xE).toNat % 2 = 0 ∧
    (highWindow.effectiveAddress 0 0xE).toNat < highWindow.params.dmBase := by decide
theorem witness_IllegalDataAccessFaults_wordOutside : (State.reset.effectiveAddress 0 0x3000).toNat % 4 = 0 ∧
    State.reset.params.dmBase + State.reset.params.dmSize < (State.reset.effectiveAddress 0 0x3000).toNat + 4 ∧
    (highWindow.effectiveAddress 0 0xC).toNat % 4 = 0 ∧
    (highWindow.effectiveAddress 0 0xC).toNat < highWindow.params.dmBase := by decide
theorem witness_MisalignedJumpTargetFaults : State.reset.delaySlot = false ∧
    ((withRegs State.reset [(31, 0x3003)]).x 31).toNat % 4 ≠ 0 := by decide
theorem witness_SignedDivisionResult : (withRegs State.reset [(1, 0x80000000), (2, 1)]).x 2 ≠ 0#32 ∧
    ¬((withRegs State.reset [(1, 0x80000000), (2, 1)]).x 1 = 0x80000000#32 ∧
      (withRegs State.reset [(1, 0x80000000), (2, 1)]).x 2 = 0xFFFFFFFF#32) := by decide
theorem witness_UnsignedDivisionResult : (withRegs State.reset [(2, 0xFFFFFFFF)]).x 2 ≠ 0#32 := by decide
theorem witness_DivisionCornersComplete_zero : State.reset.x 31 = 0#32 := by decide
theorem witness_DivisionCornersComplete_quotient :
    (withRegs State.reset [(1, 0x80000000), (2, 0xFFFFFFFF)]).x 1 = 0x80000000#32 ∧
    (withRegs State.reset [(1, 0x80000000), (2, 0xFFFFFFFF)]).x 2 = 0xFFFFFFFF#32 := by decide
theorem witness_CompareWithZeroBranches : State.reset.delaySlot = false := rfl
theorem witness_CompareTwoBranches : (withRegs State.reset [(1, 1)]).delaySlot = false := by decide
theorem witness_JumpAndLinkResults : { State.reset with npc := 0xFFFFFFFC }.delaySlot = false := rfl
theorem witness_JumpRegisterResult : State.reset.delaySlot = false ∧
    ((withRegs State.reset [(31, 0xFFFFFFFC)]).x 31).toNat % 4 = 0 := by decide
theorem witness_JumpAndLinkRegisterResult : State.reset.delaySlot = false ∧
    ((withRegs State.reset [(9, 0x3000)]).x 9).toNat % 4 = 0 := by decide
theorem witness_EffectiveAddress : decodeWord 0x8022FFFF = .instr (.lb 1 2 0xFFFF) ∧
    instrClass (.lb 1 2 0xFFFF) = some .load ∧ decodeWord 0xADF08000 = .instr (.sw 15 16 0x8000) ∧
    instrClass (.sw 15 16 0x8000) = some .store := by decide
theorem witness_LoadByteResults : State.reset.DataLegal (State.reset.effectiveAddress 0 0) 1 ∧
    State.reset.DataLegal (State.reset.effectiveAddress 0 0x2FFF) 1 := by
  simp only [State.DataLegal]; decide
theorem witness_LoadHalfResults : State.reset.DataLegal (State.reset.effectiveAddress 0 0) 2 ∧
    State.reset.DataLegal (State.reset.effectiveAddress 0 0x2FFE) 2 := by
  simp only [State.DataLegal]; decide
theorem witness_LoadWordResult : State.reset.DataLegal (State.reset.effectiveAddress 0 0) 4 ∧
    State.reset.DataLegal (State.reset.effectiveAddress 0 0x2FFC) 4 := by
  simp only [State.DataLegal]; decide
theorem witness_StoreResults : highWindow.ram.wf = true ∧ highWindow.DataLegal (highWindow.effectiveAddress 0 0x10) 1 ∧
    highWindow.DataLegal (highWindow.effectiveAddress 0 0x2E) 2 ∧
    highWindow.DataLegal (highWindow.effectiveAddress 0 0x2C) 4 := by
  simp only [State.DataLegal]; decide
theorem witness_MixedWidthAccess : (at_ 0 [] [(0x10, 0x01020304)]).ram.wf = true ∧ (0xFFFFFFFC#32).toNat % 4 = 0 ∧
    (3 : Nat) < 4 ∧ (1 : Nat) < 2 := by decide
theorem witness_LoadAfterStore : State.reset.ram.wf = true ∧
    (withRegs State.reset [(1, 0x2FFD)]).effectiveAddress 1 0xFFFF = (withRegs State.reset [(1, 0x2FFD)]).effectiveAddress 0 0x2FFC ∧
    State.reset.DataLegal (State.reset.effectiveAddress 0 0x2FFC) 1 ∧ State.reset.DataLegal (State.reset.effectiveAddress 0 0x2FFC) 2 ∧
    State.reset.DataLegal (State.reset.effectiveAddress 0 0x2FFC) 4 := by
  simp only [State.DataLegal]; decide
theorem witness_StepKeepsInvariant : ∃ t, (withProgram State.reset [0xA0020000]).Inv ∧
    step (withProgram State.reset [0xA0020000]) = .next t :=
  ⟨_, ⟨rfl, fun _ h => absurd h (List.not_mem_nil), rfl, rfl, rfl, fun _ => rfl⟩, rfl⟩
theorem witness_HiLoWritersAndReaders : ∃ t u v, exec (.mtlo 1) State.reset = .next t ∧ Instr.writesHi (.mtlo 1) = false ∧
    exec (.mthi 1) State.reset = .next u ∧ Instr.writesLo (.mthi 1) = false ∧
    exec (.add 1 1 1) State.reset = .next v ∧ (∀ rd, Instr.add 1 1 1 ≠ .mfhi rd) ∧ (∀ rd, Instr.add 1 1 1 ≠ .mflo rd) :=
  ⟨_, _, _, rfl, rfl, rfl, rfl, rfl, nofun, nofun⟩
theorem witness_OnlyStoresChangeMemory : ∃ t u, exec (.lw 0 1 0x100) State.reset = .next t ∧
    instrClass (.lw 0 1 0x100) ≠ some .store ∧ step (at_ 0xAC200000 [] []) = .next u := ⟨_, _, rfl, by decide, rfl⟩
theorem witness_RegisterWritesAreTheDestination : ∃ t u, exec (.jal 0) State.reset = .next t ∧
    Instr.dest (.jal 0) = some 31 ∧ exec (.sb 0 0 0) State.reset = .next u ∧ Instr.dest (.sb 0 0 0) = none ∧
    decodeWord 0x0C001BFF = .instr (.jal 0x1BFF) := ⟨_, _, rfl, rfl, rfl, rfl, rfl⟩
theorem witness_ResultsDependOnReadRegisters :
    (∀ r ∈ Instr.reads (.lw 1 2 0), readReg (withRegs State.reset [(2, 7)]).gpr r = State.reset.x r) ∧
    (∃ t, exec (.lw 1 2 0) State.reset = .next t) ∧ (∃ f, exec (.lw 1 2 1) State.reset = .fault f) ∧
    (∃ r, exec (.jr 1) inSlot = .refused r) := ⟨by decide, ⟨_, rfl⟩, ⟨_, rfl⟩, ⟨_, rfl⟩⟩
theorem witness_DelaySlotExecutesOnce : ∃ t u, (withProgram State.reset [0x10000003, 0x24010005]).AtInstr (.beq 0 0 3) ∧
    Instr.isControlTransfer (.beq 0 0 3) = true ∧
    exec (.beq 0 0 3) (withProgram State.reset [0x10000003, 0x24010005]) = .next t ∧ t.AtInstr (.addiu 0 1 5) ∧
    Instr.isControlTransfer (.addiu 0 1 5) = false ∧ exec (.addiu 0 1 5) t = .next u :=
  ⟨_, _, ⟨rfl, rfl, by decide, by decide, _, _, _, _, rfl, rfl, rfl, rfl, rfl⟩, rfl, rfl,
    ⟨rfl, rfl, by decide, by decide, _, _, _, _, rfl, rfl, rfl, rfl, rfl⟩, rfl, rfl⟩
theorem witness_SequencingOfEveryInstruction : ∃ t u, exec (.add 1 2 3) State.reset = .next t ∧
    Instr.isControlTransfer (.add 1 2 3) = false ∧ exec (.j 0) State.reset = .next u ∧ Instr.isControlTransfer (.j 0) = true :=
  ⟨_, _, rfl, rfl, rfl, rfl⟩
theorem witness_StallHoldsAndClears_reset : { PipeState.reset with resetPin := true }.resetPin = true := rfl
theorem witness_StallHoldsAndClears_stall : (after 2 [0x8C010000, 0x10210001, 0]).resetPin = false ∧
    (after 2 [0x8C010000, 0x10210001, 0]).pipeStop = none ∧ (after 2 [0x8C010000, 0x10210001, 0]).stall = true := by decide
theorem witness_StallHoldsAndClears_go : (after 1 [0x8C010000, 0]).resetPin = false ∧
    (after 1 [0x8C010000, 0]).pipeStop = none ∧ (after 1 [0x8C010000, 0]).stall = false := by decide
theorem witness_ForwardingDeliversLatest_use0 : (after 2 [0x3C010001, 0x10210001, 0]).stall = false ∧
    (after 2 [0x3C010001, 0x10210001, 0]).ctrlD.tuseRs = 0#2 ∧
    (after 2 [0x3C010001, 0x10210001, 0]).ctrlD.tuseRt = 0#2 := by decide
theorem witness_ForwardingDeliversLatest_use1 : (after 2 [0x24010007, 0x00211021, 0]).stall = false ∧
    (after 2 [0x24010007, 0x00211021, 0]).ctrlD.tuseRs = 1#2 ∧
    (after 2 [0x24010007, 0x00211021, 0]).ctrlD.tuseRt = 1#2 := by decide
theorem witness_ForwardingDeliversLatest_use2 : (after 2 [0x8C010000, 0xAC010004, 0]).stall = false ∧
    (after 2 [0x8C010000, 0xAC010004, 0]).ctrlD.tuseRt = 2#2 := by decide
theorem witness_StallChangeTable_S1 : (after 2 [0x00430821, 0x10210001, 0]).resetPin = false ∧
    (after 2 [0x00430821, 0x10210001, 0]).stopM = none ∧ (∃ q, cycle (after 2 [0x00430821, 0x10210001, 0]) = .next q) ∧
    (after 2 [0x00430821, 0x10210001, 0]).entryRs = .S1 ∧ (after 2 [0x00430821, 0x10210001, 0]).entryRt = .S1 :=
  ⟨by decide, by decide, ⟨_, rfl⟩, by decide, by decide⟩
theorem witness_StallChangeTable_S2 : (after 2 [0x8C010000, 0x10210001, 0]).resetPin = false ∧
    (after 2 [0x8C010000, 0x10210001, 0]).stopM = none ∧ (∃ q, cycle (after 2 [0x8C010000, 0x10210001, 0]) = .next q) ∧
    (after 2 [0x8C010000, 0x10210001, 0]).entryRs = .S2 ∧ (after 2 [0x8C010000, 0x10210001, 0]).entryRt = .S2 :=
  ⟨by decide, by decide, ⟨_, rfl⟩, by decide, by decide⟩
theorem witness_StallChangeTable_S3 : (after 3 [0x8C010000, 0x10210001, 0]).resetPin = false ∧
    (after 3 [0x8C010000, 0x10210001, 0]).stopM = none ∧ (∃ q, cycle (after 3 [0x8C010000, 0x10210001, 0]) = .next q) ∧
    (after 3 [0x8C010000, 0x10210001, 0]).entryRs = .S3 ∧ (after 3 [0x8C010000, 0x10210001, 0]).entryRt = .S3 :=
  ⟨by decide, by decide, ⟨_, rfl⟩, by decide, by decide⟩
theorem witness_StallChangeTable_S4 : (after 2 [0x8C010000, 0x00211021, 0]).resetPin = false ∧
    (after 2 [0x8C010000, 0x00211021, 0]).stopM = none ∧ (∃ q, cycle (after 2 [0x8C010000, 0x00211021, 0]) = .next q) ∧
    (after 2 [0x8C010000, 0x00211021, 0]).entryRs = .S4 ∧ (after 2 [0x8C010000, 0x00211021, 0]).entryRt = .S4 :=
  ⟨by decide, by decide, ⟨_, rfl⟩, by decide, by decide⟩
theorem witness_UnitInterlockInvariant : (after 3 ([0x00220018, 0x00001812] ++ List.replicate 3 0)).stopM = none ∧
    (after 3 ([0x00220018, 0x00001812] ++ List.replicate 3 0)).busy = true ∧
    (∃ q, cycle (after 3 ([0x00220018, 0x00001812] ++ List.replicate 3 0)) = .next q) := ⟨by decide, by decide, ⟨_, rfl⟩⟩
theorem witness_UnitInterlockInvariant_held :
    (after 6 ([0x00220018, 0, 0x8C010002] ++ List.replicate 4 0)).stopM = some (.misalignedDataAccess 2) ∧
    (after 6 ([0x00220018, 0, 0x8C010002] ++ List.replicate 4 0)).busy = true ∧
    (after 6 ([0x00220018, 0, 0x8C010002] ++ List.replicate 4 0)).frE.isMultDiv = false ∧
    (∃ q, cycle (after 6 ([0x00220018, 0, 0x8C010002] ++ List.replicate 4 0)) = .next q) :=
  ⟨by decide, by decide, by decide, ⟨_, rfl⟩⟩
theorem witness_MultiplyDivideLatency_mult : (after 2 (0x00220018 :: List.replicate 14 0)).resetPin = false ∧
    (after 2 (0x00220018 :: List.replicate 14 0)).start = true ∧
    (after 2 (0x00220018 :: List.replicate 14 0)).frE.multSel = 0b100#3 ∧
    (∃ q, (after 2 (0x00220018 :: List.replicate 14 0)).runsTo 1 q) ∧
    (∃ q, (after 2 (0x00220018 :: List.replicate 14 0)).runsTo 5 q) ∧
    (∃ q, (after 2 (0x00220018 :: List.replicate 14 0)).runsTo 6 q) :=
  ⟨by decide, by decide, by decide, runsTo_of_goes (by decide), runsTo_of_goes (by decide), runsTo_of_goes (by decide)⟩
theorem witness_MultiplyDivideLatency_div : (after 2 (0x0022001A :: List.replicate 14 0)).resetPin = false ∧
    (after 2 (0x0022001A :: List.replicate 14 0)).start = true ∧
    (after 2 (0x0022001A :: List.replicate 14 0)).frE.multSel = 0b110#3 ∧
    (∃ q, (after 2 (0x0022001A :: List.replicate 14 0)).runsTo 10 q) ∧
    (∃ q, (after 2 (0x0022001A :: List.replicate 14 0)).runsTo 11 q) :=
  ⟨by decide, by decide, by decide, runsTo_of_goes (by decide), runsTo_of_goes (by decide)⟩
theorem witness_DatapathComputesResults : ∃ t u v, decodeWord 0x00221820 = .instr (.add 1 2 3) ∧
    exec (.add 1 2 3) State.reset = .next t ∧ instrClass (.add 1 2 3) = some .alreg ∧
    muxA3 (ctrlDecoder (fOpcode 0x00221820#32) (fFunct 0x00221820#32) (fRt 0x00221820#32)).a3Sel 3 2 ≠ 0#5 ∧
    decodeWord 0x36538001 = .instr (.ori 18 19 0x8001) ∧ exec (.ori 18 19 0x8001) State.reset = .next u ∧
    instrClass (.ori 18 19 0x8001) = some .alimm ∧
    decodeWord 0x00430018 = .instr (.mult 2 3) ∧ exec (.mult 2 3) State.reset = .next v ∧
    instrClass (.mult 2 3) = some .mlutdiv := ⟨_, _, _, rfl, rfl, rfl, by decide, rfl, rfl, rfl, rfl, rfl, rfl⟩
theorem witness_DatapathComputesResults_next : ∃ t, decodeWord 0x10640000 = .instr (.beq 3 4 0) ∧
    exec (.beq 3 4 0) State.reset = .next t := ⟨_, rfl, rfl⟩
theorem witness_MemoryUnitAgrees : ∃ t u, decodeWord 0x8CA67FFC = .instr (.lw 5 6 0x7FFC) ∧
    exec (.lw 5 6 0x7FFC) (withRegs State.reset [(5, 0xFFFFB000)]) = .next t ∧
    instrClass (.lw 5 6 0x7FFC) = some .load ∧ fRt 0x8CA67FFC#32 ≠ 0#5 ∧
    decodeWord 0xADF08000 = .instr (.sw 15 16 0x8000) ∧
    exec (.sw 15 16 0x8000) (withRegs State.reset [(15, 0x8000)]) = .next u ∧
    instrClass (.sw 15 16 0x8000) = some .store ∧ (withRegs State.reset [(15, 0x8000)]).ram.wf = true :=
  ⟨_, _, rfl, rfl, rfl, by decide, rfl, rfl, rfl, by decide⟩

/-- addiu $1,$0,0x3002; jr $1; nop: the architectural run writes register 1 and then faults at the jump. -/
def jumpAstray : State := withProgram State.reset [0x24013002, 0x00200008, 0]

theorem witness_PipelineRunsTheProgram : jumpAstray.resetPin = false ∧ jumpAstray.delaySlot = false ∧
    jumpAstray.npc = jumpAstray.pc + 4#32 ∧ jumpAstray.events = [] ∧ jumpAstray.ram.wf = true := by decide
theorem witness_PipelineRunsTheProgram_next : ∃ t, Sys2Proof.core.run 1 jumpAstray = .next t := ⟨_, rfl⟩
theorem witness_PipelineRunsTheProgram_fault :
    Sys2Proof.core.run 2 jumpAstray = .fault (.misalignedInstructionAddress 0x3002) := rfl
theorem witness_PipelineRunsTheProgram_refused :
    Sys2Proof.core.run 1 (withProgram State.reset [0xFFFFFFFF]) = .refused (.unrecognisedInstruction 0xFFFFFFFF) := rfl

end Sys2Proof.Tests
end

section
/-! The register file as storage (rule R21): each of the 31 places is read by exactly one of the registers 1 to 31,
so what those registers read as determines the storage. -/

namespace Sys2Proof.Machine

/-- The register `x[i + 1]` whose storage is place `i`. -/
def regOfPlace (i : Nat) : Reg := BitVec.ofNat 5 (i + 1)

theorem regOfPlace_toNat {i : Nat} (hi : i < 31) : (regOfPlace i).toNat = i + 1 := by
  rw [regOfPlace, BitVec.toNat_ofNat]
  omega

theorem regOfPlace_ne_zero {i : Nat} (hi : i < 31) : regOfPlace i ≠ 0#5 := by
  intro h
  have hnat := regOfPlace_toNat hi
  rw [h] at hnat
  simp at hnat

theorem readReg_regOfPlace (g : Regs) {i : Nat} (hi : i < 31) : readReg g (regOfPlace i) = g[i] := by
  simp [readReg, regOfPlace_ne_zero hi, regOfPlace_toNat hi]

/-- The storage holds nothing beyond what registers 1 to 31 read as. -/
theorem regs_eq_of_readReg_eq {g g' : Regs} (h : ∀ r : Reg, r ≠ 0#5 → readReg g r = readReg g' r) : g = g' := by
  apply Vector.ext
  intro i hi
  calc g[i] = readReg g (regOfPlace i) := (readReg_regOfPlace g hi).symm
    _ = readReg g' (regOfPlace i) := h _ (regOfPlace_ne_zero hi)
    _ = g'[i] := readReg_regOfPlace g' hi

theorem State.x_zero (s : State) : s.x 0#5 = 0#32 := readReg_zero s.gpr

theorem State.setX_zero (s : State) (v : Word) : s.setX 0#5 v = s := by
  rw [State.setX, writeReg_zero]

/-- What every register reads as after `x[r] <- v`. -/
theorem State.setX_x (s : State) (r q : Reg) (v : Word) :
    (s.setX r v).x q = if q = r ∧ r ≠ 0#5 then v else s.x q := readReg_writeReg s.gpr r q v

theorem State.setX_x_same (s : State) {r : Reg} (v : Word) (hr : r ≠ 0#5) : (s.setX r v).x r = v := by
  rw [State.setX_x, if_pos ⟨rfl, hr⟩]

theorem State.setX_x_other (s : State) {r q : Reg} (v : Word) (hq : q ≠ r) : (s.setX r v).x q = s.x q := by
  rw [State.setX_x, if_neg fun h => hq h.1]

theorem State.gpr_eq_of_x_eq {s t : State} (h : ∀ r : Reg, r ≠ 0#5 → t.x r = s.x r) : t.gpr = s.gpr :=
  regs_eq_of_readReg_eq h

/-- Settles O9: register 0, reading after writing, and the storage, from the laws of the register file. -/
theorem registerFile : Obligations.RegisterFile := by
  unfold Obligations.RegisterFile
  refine ⟨State.x_zero, State.setX_zero, ?write, fun _ _ h => State.gpr_eq_of_x_eq h⟩
  case write =>
    intro s r v hr
    exact ⟨s.setX_x_same v hr, fun _ hq => s.setX_x_other v hq⟩

end Sys2Proof.Machine
end

section
/-! Opcode 000001 (rule R78): decoding is `decodeRegimm`, which `rt` alone steers, and the control decoder sees the same
`rt`, since the word it decodes is the I-type word of its inputs. -/

namespace Sys2Proof.Machine

/-! ### The words of opcode 000001 -/

theorem decodeWord_regimm {w : Word} (hop : fOpcode w = 0b000001#6) : decodeWord w = decodeRegimm w := by
  rw [decodeWord, hop]
  rfl

theorem decodeRegimm_bltz {w : Word} (hrt : fRt w = 0b00000#5) :
    decodeRegimm w = .instr (.bltz (fRs w) (fImm w)) := by
  rw [decodeRegimm, hrt]
  rfl

theorem decodeRegimm_bgez {w : Word} (hrt : fRt w = 0b00001#5) :
    decodeRegimm w = .instr (.bgez (fRs w) (fImm w)) := by
  rw [decodeRegimm, hrt]
  rfl

theorem decodeRegimm_other {w : Word} (h0 : fRt w ≠ 0b00000#5) (h1 : fRt w ≠ 0b00001#5) :
    decodeRegimm w = .rejected (.regimmRt (fRt w)) := by
  unfold decodeRegimm
  split
  · next hrt => exact absurd hrt h0
  · next hrt => exact absurd hrt h1
  · rfl

theorem decodesWithRt_bltz : DecodesWithRt 0b000001#6 0b00000#5 (fun w => .bltz (fRs w) (fImm w)) :=
  fun _ hop hrt => (decodeWord_regimm hop).trans (decodeRegimm_bltz hrt)

theorem decodesWithRt_bgez : DecodesWithRt 0b000001#6 0b00001#5 (fun w => .bgez (fRs w) (fImm w)) :=
  fun _ hop hrt => (decodeWord_regimm hop).trans (decodeRegimm_bgez hrt)

/-! ### The control decoder (rules R73, R315) -/

/-- The word the control decoder decodes, as the I-type word of its inputs. -/
theorem ctrlDecoder_word (op fn : BitVec 6) (rt : Reg) :
    op ++ 0#5 ++ rt ++ 0#10 ++ fn = iType op 0#5 rt (0#10 ++ fn) :=
  BitVec.append_assoc

/-- The control decoder's outputs for an instruction that its opcode and `rt` single out. -/
theorem ctrlDecoder_of_decodesWithRt {op : BitVec 6} {rt : Reg} {i : Word → Instr} (h : DecodesWithRt op rt i)
    (fn : BitVec 6) :
    ctrlDecoder op fn rt = instrControls op fn rt (i (iType op 0#5 rt (0#10 ++ fn))) := by
  have hdec := h (iType op 0#5 rt (0#10 ++ fn)) (fOpcode_iType ..) (fRt_iType ..)
  rw [ctrlDecoder, ctrlDecoder_word, hdec]

theorem compSel_bltz (fn : BitVec 6) : (ctrlDecoder 0b000001#6 fn 0b00000#5).compSel = 0b000#3 := by
  rw [ctrlDecoder_of_decodesWithRt decodesWithRt_bltz]
  rfl

theorem compSel_bgez (fn : BitVec 6) : (ctrlDecoder 0b000001#6 fn 0b00001#5).compSel = 0b001#3 := by
  rw [ctrlDecoder_of_decodesWithRt decodesWithRt_bgez]
  rfl

/-- Settles O3: by the three ways `rt` can go, each from the decoder's case and the control decoder's. -/
theorem regimmSelectedByRt : Obligations.RegimmSelectedByRt := by
  unfold Obligations.RegimmSelectedByRt
  intro w hop
  refine ⟨fun hrt => ⟨decodesWithRt_bltz w hop hrt, ?compBltz⟩,
    fun hrt => ⟨decodesWithRt_bgez w hop hrt, ?compBgez⟩,
    fun h0 h1 => (decodeWord_regimm hop).trans (decodeRegimm_other h0 h1)⟩
  case compBltz => rw [hop, hrt, compSel_bltz]
  case compBgez => rw [hop, hrt, compSel_bgez]

end Sys2Proof.Machine
end

section
/-! Instructions that write one general register and go on in sequence (rules R21, R25): the whole of what such an
instruction leaves, said once, and the words of opcode 000000 and of the other opcodes by the decoder's own map. -/

namespace Sys2Proof.Machine

/-! ### The write-back with the sequential update -/

/-- Register `r` after `x[r] <- v`, with the frame and the event of the write port. -/
theorem State.writesReg_writeBack (s : State) (r : Reg) (v : Word) : s.WritesReg (s.writeBack r v).advance r v := by
  refine ⟨?dest, fun q hq => ?other, rfl⟩
  case dest =>
    rw [State.advance_x, State.writeBack_x]
    by_cases hr : r = 0#5
    · simp [hr, State.x_zero]
    · simp [hr]
  case other => rw [State.advance_x, State.writeBack_x, if_neg fun h => hq h.1]

theorem State.onlyWritesReg_writeBack (s : State) (r : Reg) (v : Word) :
    s.OnlyWritesReg (s.writeBack r v).advance r v :=
  ⟨s.writesReg_writeBack r v, ⟨rfl, rfl⟩, fun _ => rfl, ⟨rfl, rfl, rfl⟩, rfl, rfl, rfl⟩

/-- An outcome that is the write-back of `v` completes and writes any `v'` that `v` is shown to be. -/
theorem State.exists_onlyWritesReg {s : State} {o : Result} {r : Reg} {v v' : Word}
    (ho : o = .next (s.writeBack r v).advance) (hv : v = v') : ∃ t, o = .next t ∧ s.OnlyWritesReg t r v' :=
  ⟨_, ho, hv ▸ s.onlyWritesReg_writeBack r v⟩

theorem State.exists_writesReg {s : State} {o : Result} {r : Reg} {v v' : Word}
    (ho : o = .next (s.writeBack r v).advance) (hv : v = v') : ∃ t, o = .next t ∧ s.WritesReg t r v' :=
  ⟨_, ho, hv ▸ s.writesReg_writeBack r v⟩

/-! ### The words of a `funct` and of an opcode (rules R76, R77) -/

theorem decodeWord_special {w : Word} (hop : fOpcode w = 0b000000#6) : decodeWord w = decodeSpecial w := by
  rw [decodeWord, hop]
  rfl

/-- The R-type map by `funct` says what the words of opcode 000000 decode to. -/
theorem decodesSpecial_of {fn : BitVec 6} {i : Word → Instr}
    (h : ∀ w, fFunct w = fn → decodeSpecial w = .instr (i w)) : DecodesSpecial fn i :=
  fun w hop hfn => (decodeWord_special hop).trans (h w hfn)

end Sys2Proof.Machine
end

section
/-! The arithmetic instructions (rules R100 to R106): each is a write-back of a 32-bit sum or difference, which is the
sum or difference of the operands' values modulo 2^32, read signed or unsigned. -/

namespace Sys2Proof.Machine

/-! ### What the six instructions do -/

theorem exec_add (rs rt rd : Reg) (s : State) :
    exec (.add rs rt rd) s = .next (s.writeBack rd (s.x rs + s.x rt)).advance := rfl

theorem exec_addu (rs rt rd : Reg) (s : State) :
    exec (.addu rs rt rd) s = .next (s.writeBack rd (s.x rs + s.x rt)).advance := rfl

theorem exec_sub (rs rt rd : Reg) (s : State) :
    exec (.sub rs rt rd) s = .next (s.writeBack rd (s.x rs - s.x rt)).advance := rfl

theorem exec_subu (rs rt rd : Reg) (s : State) :
    exec (.subu rs rt rd) s = .next (s.writeBack rd (s.x rs - s.x rt)).advance := rfl

theorem exec_addi (rs rt : Reg) (imm : Imm16) (s : State) :
    exec (.addi rs rt imm) s = .next (s.writeBack rt (s.x rs + sext16 imm)).advance := rfl

theorem exec_addiu (rs rt : Reg) (imm : Imm16) (s : State) :
    exec (.addiu rs rt imm) s = .next (s.writeBack rt (s.x rs + sext16 imm)).advance := rfl

/-! ### Sums and differences of values, modulo 2^32 (rule R11) -/

theorem add_eq_ofInt (a b : Word) : a + b = BitVec.ofInt 32 (a.toInt + b.toInt) := by
  rw [BitVec.ofInt_add, BitVec.ofInt_toInt, BitVec.ofInt_toInt]

theorem sub_eq_ofInt (a b : Word) : a - b = BitVec.ofInt 32 (a.toInt - b.toInt) := by
  rw [Int.sub_eq_add_neg, BitVec.ofInt_add, BitVec.ofInt_neg, BitVec.ofInt_toInt, BitVec.ofInt_toInt,
    BitVec.sub_eq_add_neg]

/-- Sign extension keeps the signed value, so the sum with it is the sum with the immediate's (rule R74). -/
theorem add_sext16_eq_ofInt (a : Word) (imm : Imm16) : a + sext16 imm = BitVec.ofInt 32 (a.toInt + imm.toInt) := by
  rw [add_eq_ofInt, sext16, BitVec.toInt_signExtend_of_le (by decide)]

/-! ### The words of the six instructions -/

theorem decodesSpecial_add : DecodesSpecial 0b100000#6 (fun w => .add (fRs w) (fRt w) (fRd w)) :=
  decodesSpecial_of fun w hfn => by rw [decodeSpecial, hfn]; rfl

theorem decodesSpecial_addu : DecodesSpecial 0b100001#6 (fun w => .addu (fRs w) (fRt w) (fRd w)) :=
  decodesSpecial_of fun w hfn => by rw [decodeSpecial, hfn]; rfl

theorem decodesSpecial_sub : DecodesSpecial 0b100010#6 (fun w => .sub (fRs w) (fRt w) (fRd w)) :=
  decodesSpecial_of fun w hfn => by rw [decodeSpecial, hfn]; rfl

theorem decodesSpecial_subu : DecodesSpecial 0b100011#6 (fun w => .subu (fRs w) (fRt w) (fRd w)) :=
  decodesSpecial_of fun w hfn => by rw [decodeSpecial, hfn]; rfl

theorem decodesPrimary_addi : DecodesPrimary 0b001000#6 (fun w => .addi (fRs w) (fRt w) (fImm w)) :=
  fun w hop => by rw [decodeWord, hop]; rfl

theorem decodesPrimary_addiu : DecodesPrimary 0b001001#6 (fun w => .addiu (fRs w) (fRt w) (fImm w)) :=
  fun w hop => by rw [decodeWord, hop]; rfl

/-! ### Words that differ in one field -/

/-- Two R-type words with the same registers and `shamt` differ in `funct` alone. -/
theorem rType_xor_rType (rs rt rd : Reg) (sh : Shamt) (fn fn' : BitVec 6) :
    rType rs rt rd sh fn ^^^ rType rs rt rd sh fn' = 0#26 ++ (fn ^^^ fn') := by
  rw [rType, rType, BitVec.xor_append, BitVec.xor_self]

/-- An I-type word as its opcode above its other 26 bits. -/
theorem iType_eq_append (op : BitVec 6) (rs rt : Reg) (imm : Imm16) :
    iType op rs rt imm = op ++ (rs ++ rt ++ imm) :=
  calc op ++ rs ++ rt ++ imm
    _ = op ++ (rs ++ rt) ++ imm := congrArg (· ++ imm) BitVec.append_assoc
    _ = op ++ (rs ++ rt ++ imm) := BitVec.append_assoc

theorem iType_low26 (op : BitVec 6) (rs rt : Reg) (imm : Imm16) :
    (iType op rs rt imm).extractLsb' 0 26 = rs ++ rt ++ imm := by
  rw [iType_eq_append]
  exact BitVec.extractLsb'_append_eq_right

/-! ### The statements -/

/-- Settles O15: both instructions write back the 32-bit sum, which is the unsigned values' sum modulo 2^32. -/
theorem additionResult : Obligations.AdditionResult := by
  unfold Obligations.AdditionResult
  refine ⟨fun s rs rt rd => ⟨?add, ?addu⟩, decodesSpecial_add, decodesSpecial_addu⟩
  case add => exact State.exists_onlyWritesReg (exec_add rs rt rd s) (BitVec.add_def ..)
  case addu => exact State.exists_onlyWritesReg (exec_addu rs rt rd s) (BitVec.add_def ..)

/-- Settles O16: both instructions write back the 32-bit difference. -/
theorem subtractionResult : Obligations.SubtractionResult := by
  unfold Obligations.SubtractionResult
  refine ⟨fun s rs rt rd => ⟨?sub, ?subu⟩, decodesSpecial_sub, decodesSpecial_subu⟩
  case sub => exact State.exists_onlyWritesReg (exec_sub rs rt rd s) (sub_eq_ofInt ..)
  case subu => exact State.exists_onlyWritesReg (exec_subu rs rt rd s) (sub_eq_ofInt ..)

/-- Settles O17: both instructions write back the 32-bit sum with the sign-extended immediate. -/
theorem addImmediateResult : Obligations.AddImmediateResult := by
  unfold Obligations.AddImmediateResult
  refine ⟨fun s rs rt imm => ⟨?addi, ?addiu⟩, decodesPrimary_addi, decodesPrimary_addiu⟩
  case addi => exact State.exists_onlyWritesReg (exec_addi rs rt imm s) (add_sext16_eq_ofInt ..)
  case addiu => exact State.exists_onlyWritesReg (exec_addiu rs rt imm s) (add_sext16_eq_ofInt ..)

/-- Settles O18: the two of a pair write back the same value, and their words differ in one field. -/
theorem identicalPairs : Obligations.IdenticalPairs := by
  unfold Obligations.IdenticalPairs
  refine ⟨fun s rs rt rd imm => ⟨?add, ?sub, ?addi, ?addWrites, ?subWrites, ?addiWrites⟩,
    fun rs rt rd imm => ⟨?addWords, ?subWords, ?addFunct, ?subFunct, ?addiOpcode, ?addiuOpcode, ?addiWords⟩⟩
  case add => rw [exec_add, exec_addu]
  case sub => rw [exec_sub, exec_subu]
  case addi => rw [exec_addi, exec_addiu]
  case addWrites => exact State.exists_writesReg (exec_addu rs rt rd s) (add_eq_ofInt ..)
  case subWrites => exact State.exists_writesReg (exec_subu rs rt rd s) (sub_eq_ofInt ..)
  case addiWrites => exact State.exists_writesReg (exec_addiu rs rt imm s) (add_sext16_eq_ofInt ..)
  case addWords => exact rType_xor_rType ..
  case subWords => exact rType_xor_rType ..
  case addFunct => exact fFunct_rType ..
  case subFunct => exact fFunct_rType ..
  case addiOpcode => exact fOpcode_iType ..
  case addiuOpcode => exact fOpcode_iType ..
  case addiWords => exact (iType_low26 ..).trans (iType_low26 ..).symm

end Sys2Proof.Machine
end

section
/-! The logic instructions (rules R110 to R113, R121 to R123): each is a write-back of a bit-by-bit combination of its
operands, the immediate's bits above 15 being 0. -/

namespace Sys2Proof.Machine

/-- An outcome that is the write-back of `v` completes and writes a value with every property that `v` has. -/
theorem State.exists_onlyWritesReg_of {s : State} {o : Result} {r : Reg} {v : Word} {P : Word → Prop}
    (ho : o = .next (s.writeBack r v).advance) (hv : P v) : ∃ t v', o = .next t ∧ s.OnlyWritesReg t r v' ∧ P v' :=
  ⟨_, v, ho, s.onlyWritesReg_writeBack r v, hv⟩

/-! ### What the seven instructions do -/

theorem exec_and (rs rt rd : Reg) (s : State) :
    exec (.and rs rt rd) s = .next (s.writeBack rd (s.x rs &&& s.x rt)).advance := rfl

theorem exec_or (rs rt rd : Reg) (s : State) :
    exec (.or rs rt rd) s = .next (s.writeBack rd (s.x rs ||| s.x rt)).advance := rfl

theorem exec_xor (rs rt rd : Reg) (s : State) :
    exec (.xor rs rt rd) s = .next (s.writeBack rd (s.x rs ^^^ s.x rt)).advance := rfl

theorem exec_nor (rs rt rd : Reg) (s : State) :
    exec (.nor rs rt rd) s = .next (s.writeBack rd (~~~(s.x rs ||| s.x rt))).advance := rfl

theorem exec_andi (rs rt : Reg) (imm : Imm16) (s : State) :
    exec (.andi rs rt imm) s = .next (s.writeBack rt (s.x rs &&& zext16 imm)).advance := rfl

theorem exec_ori (rs rt : Reg) (imm : Imm16) (s : State) :
    exec (.ori rs rt imm) s = .next (s.writeBack rt (s.x rs ||| zext16 imm)).advance := rfl

theorem exec_xori (rs rt : Reg) (imm : Imm16) (s : State) :
    exec (.xori rs rt imm) s = .next (s.writeBack rt (s.x rs ^^^ zext16 imm)).advance := rfl

/-! ### Bits of the results -/

theorem getLsbD_nor (a b : Word) {i : Nat} (hi : i < 32) :
    (~~~(a ||| b)).getLsbD i = !(a.getLsbD i || b.getLsbD i) := by
  rw [BitVec.getLsbD_not, BitVec.getLsbD_or, decide_eq_true hi, Bool.true_and]

/-- Zero extension keeps bits 15 to 0 and puts 0 above them (rule R74). -/
theorem getLsbD_zext16 (imm : Imm16) {i : Nat} (hi : i < 32) :
    (zext16 imm).getLsbD i = (decide (i < 16) && imm.getLsbD i) := by
  rw [zext16, BitVec.getLsbD_setWidth, decide_eq_true hi, Bool.true_and]
  by_cases h : i < 16
  · simp [h]
  · simp [h, BitVec.getLsbD_of_ge imm i (Nat.le_of_not_lt h)]

/-! ### The words of the seven instructions -/

theorem decodesSpecial_and : DecodesSpecial 0b100100#6 (fun w => .and (fRs w) (fRt w) (fRd w)) :=
  decodesSpecial_of fun w hfn => by rw [decodeSpecial, hfn]; rfl

theorem decodesSpecial_or : DecodesSpecial 0b100101#6 (fun w => .or (fRs w) (fRt w) (fRd w)) :=
  decodesSpecial_of fun w hfn => by rw [decodeSpecial, hfn]; rfl

theorem decodesSpecial_xor : DecodesSpecial 0b100110#6 (fun w => .xor (fRs w) (fRt w) (fRd w)) :=
  decodesSpecial_of fun w hfn => by rw [decodeSpecial, hfn]; rfl

theorem decodesSpecial_nor : DecodesSpecial 0b100111#6 (fun w => .nor (fRs w) (fRt w) (fRd w)) :=
  decodesSpecial_of fun w hfn => by rw [decodeSpecial, hfn]; rfl

theorem decodesPrimary_andi : DecodesPrimary 0b001100#6 (fun w => .andi (fRs w) (fRt w) (fImm w)) :=
  fun w hop => by rw [decodeWord, hop]; rfl

theorem decodesPrimary_ori : DecodesPrimary 0b001101#6 (fun w => .ori (fRs w) (fRt w) (fImm w)) :=
  fun w hop => by rw [decodeWord, hop]; rfl

theorem decodesPrimary_xori : DecodesPrimary 0b001110#6 (fun w => .xori (fRs w) (fRt w) (fImm w)) :=
  fun w hop => by rw [decodeWord, hop]; rfl

/-! ### The statements -/

/-- Settles O19: each of the four writes back the operation on whole words, which acts on each bit alone. -/
theorem bitwiseLogicResults : Obligations.BitwiseLogicResults := by
  unfold Obligations.BitwiseLogicResults
  refine ⟨fun s rs rt rd => ⟨?and, ?or, ?xor, ?nor⟩,
    decodesSpecial_and, decodesSpecial_or, decodesSpecial_xor, decodesSpecial_nor⟩
  case and => exact State.exists_onlyWritesReg_of (exec_and rs rt rd s) fun _ _ => BitVec.getLsbD_and
  case or => exact State.exists_onlyWritesReg_of (exec_or rs rt rd s) fun _ _ => BitVec.getLsbD_or
  case xor => exact State.exists_onlyWritesReg_of (exec_xor rs rt rd s) fun _ _ => BitVec.getLsbD_xor
  case nor => exact State.exists_onlyWritesReg_of (exec_nor rs rt rd s) fun _ hi => getLsbD_nor _ _ hi

/-- Settles O20: each of the three writes back the operation with the zero-extended immediate. -/
theorem immediateLogicResults : Obligations.ImmediateLogicResults := by
  unfold Obligations.ImmediateLogicResults
  refine ⟨fun s rs rt imm => ⟨?andi, ?ori, ?xori⟩, decodesPrimary_andi, decodesPrimary_ori, decodesPrimary_xori⟩
  case andi =>
    refine State.exists_onlyWritesReg_of (exec_andi rs rt imm s) fun i hi => ?_
    rw [BitVec.getLsbD_and, getLsbD_zext16 imm hi]
  case ori =>
    refine State.exists_onlyWritesReg_of (exec_ori rs rt imm s) fun i hi => ?_
    rw [BitVec.getLsbD_or, getLsbD_zext16 imm hi]
  case xori =>
    refine State.exists_onlyWritesReg_of (exec_xori rs rt imm s) fun i hi => ?_
    rw [BitVec.getLsbD_xor, getLsbD_zext16 imm hi]

end Sys2Proof.Machine
end

section
/-! The shifts (rules R114 to R120): the constant and the variable ones are the same three shifts of a word, by `shamt`
and by the low five bits of `x[rs]`. -/

namespace Sys2Proof.Machine

/-! ### What the six instructions do -/

/-- The low five bits of `x[rs]` are its value modulo 32, so no shift by 32 or more can be asked for (rule R120). -/
theorem State.shiftAmount_toNat (s : State) (rs : Reg) : (s.shiftAmount rs).toNat = (s.x rs).toNat % 32 := by
  rw [State.shiftAmount, BitVec.extractLsb'_toNat, Nat.shiftRight_zero]

theorem exec_sll (rt rd : Reg) (shamt : Shamt) (s : State) :
    exec (.sll rt rd shamt) s = .next (s.writeBack rd (s.x rt <<< shamt.toNat)).advance := rfl

theorem exec_srl (rt rd : Reg) (shamt : Shamt) (s : State) :
    exec (.srl rt rd shamt) s = .next (s.writeBack rd (s.x rt >>> shamt.toNat)).advance := rfl

theorem exec_sra (rt rd : Reg) (shamt : Shamt) (s : State) :
    exec (.sra rt rd shamt) s = .next (s.writeBack rd ((s.x rt).sshiftRight shamt.toNat)).advance := rfl

theorem exec_sllv (rs rt rd : Reg) (s : State) :
    exec (.sllv rs rt rd) s = .next (s.writeBack rd (s.x rt <<< ((s.x rs).toNat % 32))).advance := by
  rw [← State.shiftAmount_toNat]
  rfl

theorem exec_srlv (rs rt rd : Reg) (s : State) :
    exec (.srlv rs rt rd) s = .next (s.writeBack rd (s.x rt >>> ((s.x rs).toNat % 32))).advance := by
  rw [← State.shiftAmount_toNat]
  rfl

theorem exec_srav (rs rt rd : Reg) (s : State) :
    exec (.srav rs rt rd) s = .next (s.writeBack rd ((s.x rt).sshiftRight ((s.x rs).toNat % 32))).advance := by
  rw [← State.shiftAmount_toNat]
  rfl

/-! ### Bits of the results, for any amount `n` -/

/-- Zeros come in below bit `n`. -/
theorem getLsbD_shiftLeft_word (a : Word) (n : Nat) {i : Nat} (hi : i < 32) :
    (a <<< n).getLsbD i = (decide (n ≤ i) && a.getLsbD (i - n)) := by
  rw [BitVec.getLsbD_shiftLeft, decide_eq_true hi, Bool.true_and, ← decide_not]
  simp only [Nat.not_lt]

/-- Zeros come in from above: a word has no bit 32 or higher. -/
theorem getLsbD_shiftRight_word (a : Word) (n i : Nat) :
    (a >>> n).getLsbD i = (decide (i + n < 32) && a.getLsbD (i + n)) := by
  rw [BitVec.getLsbD_ushiftRight, Nat.add_comm n i]
  by_cases h : i + n < 32
  · simp [h]
  · simp [h, BitVec.getLsbD_of_ge a (i + n) (Nat.le_of_not_lt h)]

/-- Copies of the sign bit come in from above. -/
theorem getLsbD_sshiftRight_word (a : Word) (n : Nat) {i : Nat} (hi : i < 32) :
    (a.sshiftRight n).getLsbD i = if i + n < 32 then a.getLsbD (i + n) else a.getLsbD 31 := by
  rw [BitVec.getLsbD_sshiftRight, decide_eq_false (Nat.not_le_of_lt hi), Bool.not_false, Bool.true_and,
    Nat.add_comm n i, BitVec.msb_eq_getLsbD_last]

/-- The arithmetic right shift is the floor of the signed value divided by `2^n` (rule R116). -/
theorem toInt_sshiftRight_word (a : Word) (n : Nat) : (a.sshiftRight n).toInt = a.toInt / 2 ^ n := by
  rw [BitVec.toInt_sshiftRight, Int.shiftRight_eq_div_pow]
  norm_cast

/-! ### The words of the six instructions -/

theorem decodesSpecial_sll : DecodesSpecial 0b000000#6 (fun w => .sll (fRt w) (fRd w) (fShamt w)) :=
  decodesSpecial_of fun w hfn => by rw [decodeSpecial, hfn]; rfl

theorem decodesSpecial_srl : DecodesSpecial 0b000010#6 (fun w => .srl (fRt w) (fRd w) (fShamt w)) :=
  decodesSpecial_of fun w hfn => by rw [decodeSpecial, hfn]; rfl

theorem decodesSpecial_sra : DecodesSpecial 0b000011#6 (fun w => .sra (fRt w) (fRd w) (fShamt w)) :=
  decodesSpecial_of fun w hfn => by rw [decodeSpecial, hfn]; rfl

theorem decodesSpecial_sllv : DecodesSpecial 0b000100#6 (fun w => .sllv (fRs w) (fRt w) (fRd w)) :=
  decodesSpecial_of fun w hfn => by rw [decodeSpecial, hfn]; rfl

theorem decodesSpecial_srlv : DecodesSpecial 0b000110#6 (fun w => .srlv (fRs w) (fRt w) (fRd w)) :=
  decodesSpecial_of fun w hfn => by rw [decodeSpecial, hfn]; rfl

theorem decodesSpecial_srav : DecodesSpecial 0b000111#6 (fun w => .srav (fRs w) (fRt w) (fRd w)) :=
  decodesSpecial_of fun w hfn => by rw [decodeSpecial, hfn]; rfl

/-! ### The control decoder on a word of sll (rules R73, R114, R315) -/

theorem fFunct_iType_append (op : BitVec 6) (rs rt : Reg) (high : BitVec 10) (fn : BitVec 6) :
    fFunct (iType op rs rt (high ++ fn)) = fn := by
  refine BitVec.eq_of_getLsbD_eq fun i hi => ?_
  have hi16 : i < 16 := by omega
  rw [fFunct, iType, BitVec.getLsbD_extractLsb', Nat.zero_add, BitVec.getLsbD_append, BitVec.getLsbD_append,
    if_pos hi16, if_pos hi, decide_eq_true hi, Bool.true_and]

/-- The control decoder's outputs for an instruction that opcode 000000 and its `funct` single out. -/
theorem ctrlDecoder_of_decodesSpecial {fn : BitVec 6} {i : Word → Instr} (h : DecodesSpecial fn i) (rt : Reg) :
    ctrlDecoder 0b000000#6 fn rt = instrControls 0b000000#6 fn rt (i (iType 0b000000#6 0#5 rt (0#10 ++ fn))) := by
  have hdec := h (iType 0b000000#6 0#5 rt (0#10 ++ fn)) (fOpcode_iType ..) (fFunct_iType_append ..)
  rw [ctrlDecoder, ctrlDecoder_word, hdec]

theorem tuseRs_sll (rt : Reg) : (ctrlDecoder 0b000000#6 0b000000#6 rt).tuseRs = 1#2 := by
  rw [ctrlDecoder_of_decodesSpecial decodesSpecial_sll]
  rfl

/-- Within opcode 000000 only `funct` 000000 is sll. -/
theorem fFunct_of_decodeSpecial_sll {w : Word} {rt rd : Reg} {shamt : Shamt}
    (h : decodeSpecial w = .instr (.sll rt rd shamt)) : fFunct w = 0b000000#6 := by
  unfold decodeSpecial at h
  split at h
  case h_9 hfn => exact hfn
  all_goals cases h

theorem decodeRegimm_ne_sll (w : Word) (rt rd : Reg) (shamt : Shamt) :
    decodeRegimm w ≠ .instr (.sll rt rd shamt) := by
  unfold decodeRegimm
  split <;> simp

/-- Only opcode 000000 leads to sll. -/
theorem fOpcode_of_decodeWord_sll {w : Word} {rt rd : Reg} {shamt : Shamt}
    (h : decodeWord w = .instr (.sll rt rd shamt)) : fOpcode w = 0b000000#6 := by
  unfold decodeWord at h
  split at h
  case h_1 hop => exact hop
  case h_2 => exact absurd h (decodeRegimm_ne_sll w rt rd shamt)
  case h_7 | h_8 => split at h <;> cases h
  all_goals cases h

theorem fFunct_of_decodeWord_sll {w : Word} {rt rd : Reg} {shamt : Shamt}
    (h : decodeWord w = .instr (.sll rt rd shamt)) : fFunct w = 0b000000#6 :=
  fFunct_of_decodeSpecial_sll ((decodeWord_special (fOpcode_of_decodeWord_sll h)).symm.trans h)

/-! ### The statements -/

/-- Settles O21: each of the three writes back the shift of `x[rt]` by `shamt`; a word of sll has opcode and `funct` 0,
for which the control decoder gives `Tuse_rs` = 1. -/
theorem constantShiftResults : Obligations.ConstantShiftResults := by
  unfold Obligations.ConstantShiftResults
  refine ⟨fun s rt rd shamt => ⟨?sll, ?srl, ?sra, ?tuse⟩, decodesSpecial_sll, decodesSpecial_srl, decodesSpecial_sra⟩
  case sll =>
    exact State.exists_onlyWritesReg_of (exec_sll rt rd shamt s) fun _ hi => getLsbD_shiftLeft_word _ _ hi
  case srl =>
    exact State.exists_onlyWritesReg_of (exec_srl rt rd shamt s) fun _ _ => getLsbD_shiftRight_word ..
  case sra =>
    exact State.exists_onlyWritesReg_of (exec_sra rt rd shamt s)
      ⟨fun _ hi => getLsbD_sshiftRight_word _ _ hi, toInt_sshiftRight_word ..⟩
  case tuse =>
    intro w hw
    rw [fOpcode_of_decodeWord_sll hw, fFunct_of_decodeWord_sll hw, tuseRs_sll]

/-- Settles O22: the three shifts of O21 with the amount `x[rs]` mod 32. -/
theorem variableShiftResults : Obligations.VariableShiftResults := by
  unfold Obligations.VariableShiftResults
  refine ⟨fun s rs rt rd => ⟨?sllv, ?srlv, ?srav⟩, decodesSpecial_sllv, decodesSpecial_srlv, decodesSpecial_srav⟩
  case sllv =>
    exact State.exists_onlyWritesReg_of (exec_sllv rs rt rd s) fun _ hi => getLsbD_shiftLeft_word _ _ hi
  case srlv =>
    exact State.exists_onlyWritesReg_of (exec_srlv rs rt rd s) fun _ _ => getLsbD_shiftRight_word ..
  case srav =>
    exact State.exists_onlyWritesReg_of (exec_srav rs rt rd s) fun _ hi => getLsbD_sshiftRight_word _ _ hi

end Sys2Proof.Machine
end

section
/-! Multiplication, unsigned division and the moves from `HI` and `LO` (rules R131, R132, R134, R135, R137): the first
two write the pair `HI`, `LO` and nothing else, which is said once; the halves of a product are the product, since no
product of two words overflows 64 bits. -/

namespace Sys2Proof.Machine

/-! ### Writing the pair with the sequential update -/

theorem State.onlyWritesHiLo_setHiLo (s : State) (p : Word × Word) :
    s.OnlyWritesHiLo (s.setHiLo p).advance p.1 p.2 :=
  ⟨rfl, rfl, fun _ => rfl, fun _ => rfl, ⟨rfl, rfl, rfl⟩, rfl, rfl, rfl, rfl⟩

/-- An outcome that is the write of a pair to `HI` and `LO` completes and leaves there a pair with every property that
the written one has. -/
theorem State.exists_onlyWritesHiLo_of {s : State} {o : Result} {p : Word × Word} (P : Word → Word → Prop)
    (ho : o = .next (s.setHiLo p).advance) (hp : P p.1 p.2) :
    ∃ t, o = .next t ∧ s.OnlyWritesHiLo t t.hi t.lo ∧ P t.hi t.lo :=
  ⟨_, ho, s.onlyWritesHiLo_setHiLo p, hp⟩

/-! ### What the five instructions do -/

theorem exec_mult (rs rt : Reg) (s : State) :
    exec (.mult rs rt) s = .next (s.setHiLo (multResult (s.x rs) (s.x rt))).advance := rfl

theorem exec_multu (rs rt : Reg) (s : State) :
    exec (.multu rs rt) s = .next (s.setHiLo (multuResult (s.x rs) (s.x rt))).advance := rfl

theorem exec_divu (rs rt : Reg) (s : State) :
    exec (.divu rs rt) s = .next (s.setHiLo (divuResult (s.x rs) (s.x rt))).advance := rfl

theorem exec_mfhi (rd : Reg) (s : State) : exec (.mfhi rd) s = .next (s.writeBack rd s.hi).advance := rfl

theorem exec_mflo (rd : Reg) (s : State) : exec (.mflo rd) s = .next (s.writeBack rd s.lo).advance := rfl

/-! ### Products -/

/-- The halves of a product, put together again. -/
theorem splitProduct_append (prod : BitVec 64) : (splitProduct prod).1 ++ (splitProduct prod).2 = prod :=
  BitVec.extractLsb'_append_extractLsb'

theorem splitProduct_toNat (prod : BitVec 64) :
    (splitProduct prod).1.toNat * 2 ^ 32 + (splitProduct prod).2.toNat = prod.toNat := by
  have hprod : prod.toNat < 2 ^ 64 := prod.isLt
  simp only [splitProduct, BitVec.extractLsb'_toNat, Nat.shiftRight_eq_div_pow]
  omega

/-- A signed product lies between -2^62 and 2^62, so 64 bits hold it (rule R131). -/
theorem multResult_toInt (a b : Word) :
    ((multResult a b).1 ++ (multResult a b).2).toInt = a.toInt * b.toInt := by
  have hlow : -2 ^ 62 ≤ a.toInt * b.toInt := BitVec.le_toInt_mul_toInt
  have hhigh : a.toInt * b.toInt ≤ 2 ^ 62 := BitVec.toInt_mul_toInt_le
  rw [multResult, splitProduct_append]
  exact BitVec.toInt_ofInt_eq_self (by decide) (by omega) (by omega)

/-- An unsigned product lies below 2^64, so 64 bits hold it (rule R132). -/
theorem multuResult_toNat (a b : Word) :
    (multuResult a b).1.toNat * 2 ^ 32 + (multuResult a b).2.toNat = a.toNat * b.toNat := by
  have hprod : a.toNat * b.toNat < 2 ^ 64 := BitVec.toNat_mul_toNat_lt
  rw [multuResult, splitProduct_toNat, BitVec.toNat_ofNat, Nat.mod_eq_of_lt hprod]

/-! ### Unsigned quotients and remainders (rule R134) -/

/-- With a divisor other than 0 the results are those of the words' own unsigned division: neither is larger than a
word can hold, so narrowing loses nothing. -/
theorem divuResult_eq (a : Word) {b : Word} (hb : b ≠ 0#32) : divuResult a b = (a % b, a / b) := by
  rw [divuResult, if_neg hb, ← BitVec.toNat_umod, ← BitVec.toNat_udiv, BitVec.ofNat_toNat, BitVec.ofNat_toNat,
    BitVec.setWidth_eq, BitVec.setWidth_eq]

theorem toNat_eq_udiv_mul_add_umod (a b : Word) : a.toNat = (a / b).toNat * b.toNat + (a % b).toNat := by
  rw [BitVec.toNat_udiv, BitVec.toNat_umod]
  exact (Nat.div_add_mod' a.toNat b.toNat).symm

/-! ### The words of the five instructions -/

theorem decodesSpecial_mult : DecodesSpecial 0b011000#6 (fun w => .mult (fRs w) (fRt w)) :=
  decodesSpecial_of fun w hfn => by rw [decodeSpecial, hfn]; rfl

theorem decodesSpecial_multu : DecodesSpecial 0b011001#6 (fun w => .multu (fRs w) (fRt w)) :=
  decodesSpecial_of fun w hfn => by rw [decodeSpecial, hfn]; rfl

theorem decodesSpecial_divu : DecodesSpecial 0b011011#6 (fun w => .divu (fRs w) (fRt w)) :=
  decodesSpecial_of fun w hfn => by rw [decodeSpecial, hfn]; rfl

theorem decodesSpecial_mfhi : DecodesSpecial 0b010000#6 (fun w => .mfhi (fRd w)) :=
  decodesSpecial_of fun w hfn => by rw [decodeSpecial, hfn]; rfl

theorem decodesSpecial_mflo : DecodesSpecial 0b010010#6 (fun w => .mflo (fRd w)) :=
  decodesSpecial_of fun w hfn => by rw [decodeSpecial, hfn]; rfl

/-! ### The statements -/

/-- Settles O26: each of the two writes the halves of the product, which 64 bits hold exactly. -/
theorem multiplicationResults : Obligations.MultiplicationResults := by
  unfold Obligations.MultiplicationResults
  refine ⟨fun s rs rt => ⟨?mult, ?multu⟩, decodesSpecial_mult, decodesSpecial_multu⟩
  case mult =>
    exact State.exists_onlyWritesHiLo_of (fun hi lo => (hi ++ lo).toInt = (s.x rs).toInt * (s.x rt).toInt)
      (exec_mult rs rt s) (multResult_toInt ..)
  case multu =>
    exact State.exists_onlyWritesHiLo_of
      (fun hi lo => hi.toNat * 2 ^ 32 + lo.toNat = (s.x rs).toNat * (s.x rt).toNat)
      (exec_multu rs rt s) (multuResult_toNat ..)

/-- Settles O28: the pair written is remainder and quotient of the unsigned division, since the divisor is not 0. -/
theorem unsignedDivisionResult : Obligations.UnsignedDivisionResult := by
  unfold Obligations.UnsignedDivisionResult
  refine ⟨fun s rs rt hrt => ?divu, decodesSpecial_divu⟩
  case divu =>
    have hexec := exec_divu rs rt s
    rw [divuResult_eq (s.x rs) hrt] at hexec
    have hpos : 0#32 < s.x rt := (BitVec.pos_iff_ne_zero _).mpr hrt
    exact State.exists_onlyWritesHiLo_of
      (fun hi lo => (s.x rs).toNat = lo.toNat * (s.x rt).toNat + hi.toNat ∧ hi.toNat < (s.x rt).toNat)
      hexec ⟨toNat_eq_udiv_mul_add_umod .., BitVec.umod_lt _ hpos⟩

/-- Settles O30: each of the two is the write-back of `HI` or `LO`, which leaves both as they are. -/
theorem moveFromHiLoResults : Obligations.MoveFromHiLoResults := by
  unfold Obligations.MoveFromHiLoResults
  refine ⟨fun s rd => ⟨?mfhi, ?mflo⟩, decodesSpecial_mfhi, decodesSpecial_mflo⟩
  case mfhi => exact State.exists_onlyWritesReg (exec_mfhi rd s) rfl
  case mflo => exact State.exists_onlyWritesReg (exec_mflo rd s) rfl

end Sys2Proof.Machine
end

section
/-! Set on less than and load upper immediate (rules R150 to R154): a comparison's write-back is 1 or 0, and sign
extension keeps the immediate's signed value, of which the unsigned comparison takes the residue modulo 2^32. -/

namespace Sys2Proof.Machine

/-! ### What the five instructions do -/

theorem exec_slt (rs rt rd : Reg) (s : State) :
    exec (.slt rs rt rd) s = .next (s.writeBack rd (boolWord (signedLess (s.x rs) (s.x rt)))).advance := rfl

theorem exec_sltu (rs rt rd : Reg) (s : State) :
    exec (.sltu rs rt rd) s = .next (s.writeBack rd (boolWord (unsignedLess (s.x rs) (s.x rt)))).advance := rfl

theorem exec_slti (rs rt : Reg) (imm : Imm16) (s : State) :
    exec (.slti rs rt imm) s = .next (s.writeBack rt (boolWord (signedLess (s.x rs) (sext16 imm)))).advance := rfl

theorem exec_sltiu (rs rt : Reg) (imm : Imm16) (s : State) :
    exec (.sltiu rs rt imm) s = .next (s.writeBack rt (boolWord (unsignedLess (s.x rs) (sext16 imm)))).advance := rfl

theorem exec_lui (rt : Reg) (imm : Imm16) (s : State) :
    exec (.lui rt imm) s = .next (s.writeBack rt (upper16 imm)).advance := rfl

/-! ### Comparisons as words (rule R155) -/

theorem boolWord_decide (p : Prop) [Decidable p] : boolWord (decide p) = if p then 1#32 else 0#32 := by
  simp only [boolWord, decide_eq_true_eq]

theorem boolWord_signedLess (a b : Word) :
    boolWord (signedLess a b) = if a.toInt < b.toInt then 1#32 else 0#32 := boolWord_decide _

theorem boolWord_unsignedLess (a b : Word) :
    boolWord (unsignedLess a b) = if a.toNat < b.toNat then 1#32 else 0#32 := boolWord_decide _

/-! ### The immediate sign-extended, and above sixteen zero bits (rule R74) -/

theorem toInt_sext16 (imm : Imm16) : (sext16 imm).toInt = imm.toInt :=
  BitVec.toInt_signExtend_of_le (by decide)

/-- The unsigned value of a word is its signed value modulo 2^32 (rule R11). -/
theorem toNat_eq_toInt_emod (a : Word) : (a.toNat : Int) = a.toInt % 2 ^ 32 := by
  have hlt := a.isLt
  rw [BitVec.toInt_eq_toNat_cond]
  split <;> omega

theorem boolWord_signedLess_sext16 (a : Word) (imm : Imm16) :
    boolWord (signedLess a (sext16 imm)) = if a.toInt < imm.toInt then 1#32 else 0#32 := by
  rw [boolWord_signedLess, toInt_sext16]

/-- The immediate is sign-extended first and read unsigned afterwards (rule R153). -/
theorem boolWord_unsignedLess_sext16 (a : Word) (imm : Imm16) :
    boolWord (unsignedLess a (sext16 imm)) = if (a.toNat : Int) < imm.toInt % 2 ^ 32 then 1#32 else 0#32 := by
  rw [boolWord_unsignedLess, ← toInt_sext16, ← toNat_eq_toInt_emod]
  simp only [Int.ofNat_lt]

theorem upper16_eq_ofNat (imm : Imm16) : upper16 imm = BitVec.ofNat 32 (imm.toNat * 2 ^ 16) := by
  have hlt := imm.isLt
  refine BitVec.eq_of_toNat_eq ?_
  calc (upper16 imm).toNat = imm.toNat <<< 16 ||| 0 := BitVec.toNat_append ..
    _ = imm.toNat * 2 ^ 16 := by rw [Nat.or_zero, Nat.shiftLeft_eq]
    _ = (BitVec.ofNat 32 (imm.toNat * 2 ^ 16)).toNat := by rw [BitVec.toNat_ofNat, Nat.mod_eq_of_lt (by omega)]

/-! ### The words of the five instructions -/

theorem decodesSpecial_slt : DecodesSpecial 0b101010#6 (fun w => .slt (fRs w) (fRt w) (fRd w)) :=
  decodesSpecial_of fun w hfn => by rw [decodeSpecial, hfn]; rfl

theorem decodesSpecial_sltu : DecodesSpecial 0b101011#6 (fun w => .sltu (fRs w) (fRt w) (fRd w)) :=
  decodesSpecial_of fun w hfn => by rw [decodeSpecial, hfn]; rfl

theorem decodesPrimary_slti : DecodesPrimary 0b001010#6 (fun w => .slti (fRs w) (fRt w) (fImm w)) :=
  fun w hop => by rw [decodeWord, hop]; rfl

theorem decodesPrimary_sltiu : DecodesPrimary 0b001011#6 (fun w => .sltiu (fRs w) (fRt w) (fImm w)) :=
  fun w hop => by rw [decodeWord, hop]; rfl

theorem decodesPrimary_lui : DecodesPrimary 0b001111#6 (fun w => .lui (fRt w) (fImm w)) :=
  fun w hop => by rw [decodeWord, hop]; rfl

/-! ### The control decoder and EXT on a word of lui (rules R154, R311, R315) -/

/-- The control decoder's outputs for an instruction that its opcode alone singles out. -/
theorem ctrlDecoder_of_decodesPrimary {op : BitVec 6} {i : Word → Instr} (h : DecodesPrimary op i)
    (fn : BitVec 6) (rt : Reg) :
    ctrlDecoder op fn rt = instrControls op fn rt (i (iType op 0#5 rt (0#10 ++ fn))) :=
  ctrlDecoder_of_decodesWithRt (fun w hop _ => h w hop) fn

/-- lui takes EXT's third form and writes it back without the ALU; it uses neither source register. -/
theorem ctrlDecoder_lui (fn : BitVec 6) (rt : Reg) :
    (ctrlDecoder 0b001111#6 fn rt).extSel = 0b10#2 ∧ (ctrlDecoder 0b001111#6 fn rt).wdSel = 0b10#2 ∧
      (ctrlDecoder 0b001111#6 fn rt).tuseRs = 0b11#2 ∧ (ctrlDecoder 0b001111#6 fn rt).tuseRt = 0b11#2 := by
  rw [ctrlDecoder_of_decodesPrimary decodesPrimary_lui]
  exact ⟨rfl, rfl, rfl, rfl⟩

theorem extModule_upper (imm : Imm16) : extModule 0b10#2 imm = upper16 imm := rfl

/-! ### The statements -/

/-- Settles O24: each of the two writes back the comparison with the sign-extended immediate. -/
theorem setLessThanImmediateResults : Obligations.SetLessThanImmediateResults := by
  unfold Obligations.SetLessThanImmediateResults
  refine ⟨fun s rs rt imm => ⟨?slti, ?sltiu⟩, decodesPrimary_slti, decodesPrimary_sltiu⟩
  case slti => exact State.exists_onlyWritesReg (exec_slti rs rt imm s) (boolWord_signedLess_sext16 ..)
  case sltiu => exact State.exists_onlyWritesReg (exec_sltiu rs rt imm s) (boolWord_unsignedLess_sext16 ..)

/-- Settles O25: the value written back is the one EXT gives for the `EXTSel` of lui, which the control decoder
gives from the opcode, whatever `funct` and `rt` are. -/
theorem loadUpperResult : Obligations.LoadUpperResult := by
  unfold Obligations.LoadUpperResult
  refine ⟨fun s rt imm => ?result, decodesPrimary_lui, fun w hop => ?controls, ?tnewE⟩
  case result => exact State.exists_onlyWritesReg (exec_lui rt imm s) (upper16_eq_ofNat imm)
  case controls =>
    obtain ⟨hext, hwd, huseRs, huseRt⟩ := ctrlDecoder_lui (fFunct w) (fRt w)
    rw [hop]
    exact ⟨hext, hwd, huseRs, huseRt, (extModule_upper _).trans (upper16_eq_ofNat _)⟩
  case tnewE => rfl

/-- Settles O23: each of the two writes back the comparison of the two registers. -/
theorem setLessThanResults : Obligations.SetLessThanResults := by
  unfold Obligations.SetLessThanResults
  refine ⟨fun s rs rt rd => ⟨?slt, ?sltu⟩, decodesSpecial_slt, decodesSpecial_sltu⟩
  case slt => exact State.exists_onlyWritesReg (exec_slt rs rt rd s) (boolWord_signedLess ..)
  case sltu => exact State.exists_onlyWritesReg (exec_sltu rs rt rd s) (boolWord_unsignedLess ..)

end Sys2Proof.Machine
end

section
/-! The six branches (rules R160 to R166): outside a delay slot each is the common branch on its own condition, whose
target is the delay slot's address plus four times the signed immediate. -/

namespace Sys2Proof.Machine

/-! ### The control transfer and the branch target (rules R25, R74, R160) -/

theorem State.onlyTransfers_advanceTo (s : State) (target : Word) : s.OnlyTransfers (s.advanceTo target true) target :=
  ⟨⟨rfl, rfl, rfl⟩, fun _ => rfl, ⟨rfl, rfl⟩, fun _ => rfl, ⟨rfl, rfl, rfl⟩, rfl⟩

/-- Two zero bits below the immediate make it four times as large, and sign extension keeps that. -/
theorem toInt_branchOffset (imm : Imm16) : (branchOffset imm).toInt = 4 * imm.toInt := by
  rw [branchOffset, BitVec.toInt_signExtend_of_le (by decide), BitVec.toInt_append_zero]
  norm_num

theorem State.branchTarget_eq_ofInt (s : State) (imm : Imm16) :
    s.branchTarget imm = BitVec.ofInt 32 (s.npc.toNat + 4 * imm.toInt) := by
  rw [State.branchTarget, BitVec.ofInt_add, BitVec.ofInt_natCast, BitVec.ofNat_toNat, BitVec.setWidth_eq,
    ← toInt_branchOffset, BitVec.ofInt_toInt]

/-- Outside a delay slot the common branch on `c` completes and transfers control by any proposition that `c` decides. -/
theorem State.exists_onlyTransfers_branch {s : State} {o : Result} {c : Bool} {P : Prop} [Decidable P] {imm : Imm16}
    (hslot : s.delaySlot = false) (ho : o = s.branch c imm) (hc : c = true ↔ P) :
    ∃ t, o = .next t ∧
      s.OnlyTransfers t (if P then BitVec.ofInt 32 (s.npc.toNat + 4 * imm.toInt) else s.npc + 4#32) := by
  refine ⟨_, ho.trans (State.branch_next.mpr ⟨hslot, rfl⟩), ?_⟩
  rw [if_congr hc (s.branchTarget_eq_ofInt imm) rfl]
  exact s.onlyTransfers_advanceTo _

/-! ### What the six instructions do -/

theorem exec_bltz (rs : Reg) (imm : Imm16) (s : State) :
    exec (.bltz rs imm) s = s.branch (condLtz (s.x rs)) imm := rfl

theorem exec_bgez (rs : Reg) (imm : Imm16) (s : State) :
    exec (.bgez rs imm) s = s.branch (condGez (s.x rs)) imm := rfl

theorem exec_blez (rs : Reg) (imm : Imm16) (s : State) :
    exec (.blez rs imm) s = s.branch (condLez (s.x rs)) imm := rfl

theorem exec_bgtz (rs : Reg) (imm : Imm16) (s : State) :
    exec (.bgtz rs imm) s = s.branch (condGtz (s.x rs)) imm := rfl

theorem exec_beq (rs rt : Reg) (imm : Imm16) (s : State) :
    exec (.beq rs rt imm) s = s.branch (condEq (s.x rs) (s.x rt)) imm := rfl

theorem exec_bne (rs rt : Reg) (imm : Imm16) (s : State) :
    exec (.bne rs rt imm) s = s.branch (condNe (s.x rs) (s.x rt)) imm := rfl

/-! ### The six conditions (rules R161 to R166) -/

theorem condLtz_iff (a : Word) : condLtz a = true ↔ a.toInt < 0 := decide_eq_true_iff

theorem condGez_iff (a : Word) : condGez a = true ↔ a.toInt ≥ 0 := decide_eq_true_iff

theorem condLez_iff (a : Word) : condLez a = true ↔ a.toInt ≤ 0 := decide_eq_true_iff

theorem condGtz_iff (a : Word) : condGtz a = true ↔ a.toInt > 0 := decide_eq_true_iff

theorem condEq_iff (a b : Word) : condEq a b = true ↔ a = b := beq_iff_eq

theorem condNe_iff (a b : Word) : condNe a b = true ↔ a ≠ b := bne_iff_ne

/-! ### The words of the other four instructions (rules R76, R79) -/

theorem decodesWithRt_blez : DecodesWithRt 0b000110#6 0b00000#5 (fun w => .blez (fRs w) (fImm w)) :=
  fun w hop hrt => by rw [decodeWord, hop, hrt]; rfl

theorem decodesWithRt_bgtz : DecodesWithRt 0b000111#6 0b00000#5 (fun w => .bgtz (fRs w) (fImm w)) :=
  fun w hop hrt => by rw [decodeWord, hop, hrt]; rfl

theorem decodesPrimary_beq : DecodesPrimary 0b000100#6 (fun w => .beq (fRs w) (fRt w) (fImm w)) :=
  fun w hop => by rw [decodeWord, hop]; rfl

theorem decodesPrimary_bne : DecodesPrimary 0b000101#6 (fun w => .bne (fRs w) (fRt w) (fImm w)) :=
  fun w hop => by rw [decodeWord, hop]; rfl

/-! ### The statements -/

/-- Settles O32: each of the four is the common branch, on its own comparison of `x[rs]` with 0. -/
theorem compareWithZeroBranches : Obligations.CompareWithZeroBranches := by
  unfold Obligations.CompareWithZeroBranches
  refine ⟨fun s rs imm hslot => ⟨?bltz, ?bgez, ?blez, ?bgtz⟩,
    decodesWithRt_bltz, decodesWithRt_bgez, decodesWithRt_blez, decodesWithRt_bgtz⟩
  case bltz => exact State.exists_onlyTransfers_branch hslot (exec_bltz rs imm s) (condLtz_iff _)
  case bgez => exact State.exists_onlyTransfers_branch hslot (exec_bgez rs imm s) (condGez_iff _)
  case blez => exact State.exists_onlyTransfers_branch hslot (exec_blez rs imm s) (condLez_iff _)
  case bgtz => exact State.exists_onlyTransfers_branch hslot (exec_bgtz rs imm s) (condGtz_iff _)

/-- Settles O33: each of the two is the common branch, on the two registers being equal or not. -/
theorem compareTwoBranches : Obligations.CompareTwoBranches := by
  unfold Obligations.CompareTwoBranches
  refine ⟨fun s rs rt imm hslot => ⟨?beq, ?bne⟩, decodesPrimary_beq, decodesPrimary_bne⟩
  case beq => exact State.exists_onlyTransfers_branch hslot (exec_beq rs rt imm s) (condEq_iff ..)
  case bne => exact State.exists_onlyTransfers_branch hslot (exec_bne rs rt imm s) (condNe_iff ..)

end Sys2Proof.Machine
end

section
/-! The jumps j and jal (rules R180, R183 to R185): outside a delay slot each is a transfer to the target in the delay
slot's 256 MiB region, which jal makes after writing the link. What a link leaves is said for any register. -/

namespace Sys2Proof.Machine

/-! ### The jump target and the link (rules R25, R180, R185) -/

/-- `instr_index` and the two zero bits fill the 28 bits below the region's number, so the target is the region's first
address plus four times the index. -/
theorem State.jumpTarget_eq_ofNat (s : State) (index : Index26) :
    s.jumpTarget index = BitVec.ofNat 32 (s.npc.toNat / 2 ^ 28 * 2 ^ 28 + 4 * index.toNat) := by
  have hnpc : s.npc.toNat < 2 ^ 32 := s.npc.isLt
  have hindex : index.toNat < 2 ^ 26 := index.isLt
  have hregion : (s.npc.extractLsb' 28 4).toNat = s.npc.toNat / 2 ^ 28 := by
    rw [BitVec.extractLsb'_toNat, Nat.shiftRight_eq_div_pow, Nat.mod_eq_of_lt (by omega)]
  refine BitVec.eq_of_toNat_eq ?_
  calc (s.jumpTarget index).toNat
      = (s.npc.toNat / 2 ^ 28 * 2 ^ 26 + index.toNat) * 2 ^ 2 := by
        rw [State.jumpTarget, BitVec.toNat_append, BitVec.toNat_append, hregion, BitVec.toNat_ofNat, Nat.zero_mod,
          Nat.or_zero, ← Nat.shiftLeft_add_eq_or_of_lt hindex, Nat.shiftLeft_eq, Nat.shiftLeft_eq]
    _ = s.npc.toNat / 2 ^ 28 * 2 ^ 28 + 4 * index.toNat := by omega
    _ = (BitVec.ofNat 32 (s.npc.toNat / 2 ^ 28 * 2 ^ 28 + 4 * index.toNat)).toNat := by
        rw [BitVec.toNat_ofNat, Nat.mod_eq_of_lt (by omega)]

/-- The write port and the registers do not see the sequencing, so the link is the write-back of an instruction that
goes on in sequence. -/
theorem State.onlyLinks_writeBack (s : State) (r : Reg) (target : Word) :
    s.OnlyLinks ((s.writeBack r s.linkValue).advanceTo target true) r target :=
  ⟨s.writesReg_writeBack r s.linkValue, ⟨rfl, rfl, rfl⟩, ⟨rfl, rfl⟩, fun _ => rfl, ⟨rfl, rfl, rfl⟩⟩

/-! ### What the two instructions do -/

theorem exec_j (index : Index26) (s : State) :
    exec (.j index) s = s.controlTransfer (.next (s.advanceTo (s.jumpTarget index) true)) := rfl

theorem exec_jal (index : Index26) (s : State) :
    exec (.jal index) s =
      s.controlTransfer (.next ((s.writeBack 31#5 s.linkValue).advanceTo (s.jumpTarget index) true)) := rfl

/-! ### The words of the two instructions (rules R70, R76) -/

theorem decodesPrimary_j : DecodesPrimary 0b000010#6 (fun w => .j (fIndex w)) :=
  fun w hop => by rw [decodeWord, hop]; rfl

theorem decodesPrimary_jal : DecodesPrimary 0b000011#6 (fun w => .jal (fIndex w)) :=
  fun w hop => by rw [decodeWord, hop]; rfl

/-! ### The statement -/

/-- Settles O34: outside a delay slot each of the two completes with its transfer, whose target is the one of
`State.jumpTarget_eq_ofNat`; the classes are read off `instrClass`. -/
theorem jumpAndLinkResults : Obligations.JumpAndLinkResults := by
  unfold Obligations.JumpAndLinkResults
  refine ⟨fun s index hslot => ?_, decodesPrimary_j, decodesPrimary_jal⟩
  rw [← s.jumpTarget_eq_ofNat index]
  refine ⟨⟨_, ?j, s.onlyTransfers_advanceTo _⟩, ⟨_, ?jal, s.onlyLinks_writeBack _ _⟩, ?classes⟩
  case j => exact (exec_j index s).trans (State.controlTransfer_next.mpr ⟨hslot, rfl⟩)
  case jal => exact (exec_jal index s).trans (State.controlTransfer_next.mpr ⟨hslot, rfl⟩)
  case classes => exact ⟨rfl, rfl, rfl⟩

end Sys2Proof.Machine
end

section
/-! The decoder and the encoder (rules R70 to R80): the words of the instructions not met so far, and that decoding
inverts encoding. -/

namespace Sys2Proof.Machine

/-! ### The words of the remaining instructions (rules R76, R77) -/

theorem decodesSpecial_div : DecodesSpecial 0b011010#6 (fun w => .div (fRs w) (fRt w)) :=
  decodesSpecial_of fun w hfn => by rw [decodeSpecial, hfn]; rfl

theorem decodesSpecial_mthi : DecodesSpecial 0b010001#6 (fun w => .mthi (fRs w)) :=
  decodesSpecial_of fun w hfn => by rw [decodeSpecial, hfn]; rfl

theorem decodesSpecial_mtlo : DecodesSpecial 0b010011#6 (fun w => .mtlo (fRs w)) :=
  decodesSpecial_of fun w hfn => by rw [decodeSpecial, hfn]; rfl

theorem decodesSpecial_jr : DecodesSpecial 0b001000#6 (fun w => .jr (fRs w)) :=
  decodesSpecial_of fun w hfn => by rw [decodeSpecial, hfn]; rfl

theorem decodesSpecial_jalr : DecodesSpecial 0b001001#6 (fun w => .jalr (fRs w) (fRd w)) :=
  decodesSpecial_of fun w hfn => by rw [decodeSpecial, hfn]; rfl

theorem decodesPrimary_lb : DecodesPrimary 0b100000#6 (fun w => .lb (fRs w) (fRt w) (fImm w)) :=
  fun w hop => by rw [decodeWord, hop]; rfl

theorem decodesPrimary_lh : DecodesPrimary 0b100001#6 (fun w => .lh (fRs w) (fRt w) (fImm w)) :=
  fun w hop => by rw [decodeWord, hop]; rfl

theorem decodesPrimary_lw : DecodesPrimary 0b100011#6 (fun w => .lw (fRs w) (fRt w) (fImm w)) :=
  fun w hop => by rw [decodeWord, hop]; rfl

theorem decodesPrimary_lbu : DecodesPrimary 0b100100#6 (fun w => .lbu (fRs w) (fRt w) (fImm w)) :=
  fun w hop => by rw [decodeWord, hop]; rfl

theorem decodesPrimary_lhu : DecodesPrimary 0b100101#6 (fun w => .lhu (fRs w) (fRt w) (fImm w)) :=
  fun w hop => by rw [decodeWord, hop]; rfl

theorem decodesPrimary_sb : DecodesPrimary 0b101000#6 (fun w => .sb (fRs w) (fRt w) (fImm w)) :=
  fun w hop => by rw [decodeWord, hop]; rfl

theorem decodesPrimary_sh : DecodesPrimary 0b101001#6 (fun w => .sh (fRs w) (fRt w) (fImm w)) :=
  fun w hop => by rw [decodeWord, hop]; rfl

theorem decodesPrimary_sw : DecodesPrimary 0b101011#6 (fun w => .sw (fRs w) (fRt w) (fImm w)) :=
  fun w hop => by rw [decodeWord, hop]; rfl

/-! ### Decoding the words the encoder writes, by their form (rule R70) -/

/-- The instruction a `funct` singles out is read back from any R-type word, with the word's own fields as operands. -/
theorem decodeWord_rType {fn : BitVec 6} {i : Word → Instr} (h : DecodesSpecial fn i)
    (rs rt rd : Reg) (sh : Shamt) :
    decodeWord (rType rs rt rd sh fn) = .instr (i (rType rs rt rd sh fn)) :=
  h _ (fOpcode_rType ..) (fFunct_rType ..)

theorem decodeWord_iType {op : BitVec 6} {i : Word → Instr} (h : DecodesPrimary op i) (rs rt : Reg) (imm : Imm16) :
    decodeWord (iType op rs rt imm) = .instr (i (iType op rs rt imm)) :=
  h _ (fOpcode_iType ..)

theorem decodeWord_iType_rt {op : BitVec 6} {rt : Reg} {i : Word → Instr} (h : DecodesWithRt op rt i)
    (rs : Reg) (imm : Imm16) : decodeWord (iType op rs rt imm) = .instr (i (iType op rs rt imm)) :=
  h _ (fOpcode_iType ..) (fRt_iType ..)

theorem decodeWord_jType {op : BitVec 6} {i : Word → Instr} (h : DecodesPrimary op i) (index : Index26) :
    decodeWord (jType op index) = .instr (i (jType op index)) :=
  h _ (fOpcode_jType ..)

/-- Decoding inverts encoding: by the constructors, each from its decoder case and the fields of its word's form. -/
theorem decodeWord_encode (i : Instr) : decodeWord (encode i) = .instr i := by
  cases i with
  | add rs rt rd => simp [encode, decodeWord_rType decodesSpecial_add, fRs_rType, fRt_rType, fRd_rType]
  | addu rs rt rd => simp [encode, decodeWord_rType decodesSpecial_addu, fRs_rType, fRt_rType, fRd_rType]
  | sub rs rt rd => simp [encode, decodeWord_rType decodesSpecial_sub, fRs_rType, fRt_rType, fRd_rType]
  | subu rs rt rd => simp [encode, decodeWord_rType decodesSpecial_subu, fRs_rType, fRt_rType, fRd_rType]
  | addi rs rt imm => simp [encode, decodeWord_iType decodesPrimary_addi, fRs_iType, fRt_iType, fImm_iType]
  | addiu rs rt imm => simp [encode, decodeWord_iType decodesPrimary_addiu, fRs_iType, fRt_iType, fImm_iType]
  | and rs rt rd => simp [encode, decodeWord_rType decodesSpecial_and, fRs_rType, fRt_rType, fRd_rType]
  | or rs rt rd => simp [encode, decodeWord_rType decodesSpecial_or, fRs_rType, fRt_rType, fRd_rType]
  | xor rs rt rd => simp [encode, decodeWord_rType decodesSpecial_xor, fRs_rType, fRt_rType, fRd_rType]
  | nor rs rt rd => simp [encode, decodeWord_rType decodesSpecial_nor, fRs_rType, fRt_rType, fRd_rType]
  | sll rt rd shamt => simp [encode, decodeWord_rType decodesSpecial_sll, fRt_rType, fRd_rType, fShamt_rType]
  | srl rt rd shamt => simp [encode, decodeWord_rType decodesSpecial_srl, fRt_rType, fRd_rType, fShamt_rType]
  | sra rt rd shamt => simp [encode, decodeWord_rType decodesSpecial_sra, fRt_rType, fRd_rType, fShamt_rType]
  | sllv rs rt rd => simp [encode, decodeWord_rType decodesSpecial_sllv, fRs_rType, fRt_rType, fRd_rType]
  | srlv rs rt rd => simp [encode, decodeWord_rType decodesSpecial_srlv, fRs_rType, fRt_rType, fRd_rType]
  | srav rs rt rd => simp [encode, decodeWord_rType decodesSpecial_srav, fRs_rType, fRt_rType, fRd_rType]
  | andi rs rt imm => simp [encode, decodeWord_iType decodesPrimary_andi, fRs_iType, fRt_iType, fImm_iType]
  | ori rs rt imm => simp [encode, decodeWord_iType decodesPrimary_ori, fRs_iType, fRt_iType, fImm_iType]
  | xori rs rt imm => simp [encode, decodeWord_iType decodesPrimary_xori, fRs_iType, fRt_iType, fImm_iType]
  | mult rs rt => simp [encode, decodeWord_rType decodesSpecial_mult, fRs_rType, fRt_rType]
  | multu rs rt => simp [encode, decodeWord_rType decodesSpecial_multu, fRs_rType, fRt_rType]
  | div rs rt => simp [encode, decodeWord_rType decodesSpecial_div, fRs_rType, fRt_rType]
  | divu rs rt => simp [encode, decodeWord_rType decodesSpecial_divu, fRs_rType, fRt_rType]
  | mfhi rd => simp [encode, decodeWord_rType decodesSpecial_mfhi, fRd_rType]
  | mthi rs => simp [encode, decodeWord_rType decodesSpecial_mthi, fRs_rType]
  | mflo rd => simp [encode, decodeWord_rType decodesSpecial_mflo, fRd_rType]
  | mtlo rs => simp [encode, decodeWord_rType decodesSpecial_mtlo, fRs_rType]
  | slt rs rt rd => simp [encode, decodeWord_rType decodesSpecial_slt, fRs_rType, fRt_rType, fRd_rType]
  | sltu rs rt rd => simp [encode, decodeWord_rType decodesSpecial_sltu, fRs_rType, fRt_rType, fRd_rType]
  | slti rs rt imm => simp [encode, decodeWord_iType decodesPrimary_slti, fRs_iType, fRt_iType, fImm_iType]
  | sltiu rs rt imm => simp [encode, decodeWord_iType decodesPrimary_sltiu, fRs_iType, fRt_iType, fImm_iType]
  | lui rt imm => simp [encode, decodeWord_iType decodesPrimary_lui, fRt_iType, fImm_iType]
  | bltz rs imm => simp [encode, decodeWord_iType_rt decodesWithRt_bltz, fRs_iType, fImm_iType]
  | bgez rs imm => simp [encode, decodeWord_iType_rt decodesWithRt_bgez, fRs_iType, fImm_iType]
  | beq rs rt imm => simp [encode, decodeWord_iType decodesPrimary_beq, fRs_iType, fRt_iType, fImm_iType]
  | bne rs rt imm => simp [encode, decodeWord_iType decodesPrimary_bne, fRs_iType, fRt_iType, fImm_iType]
  | blez rs imm => simp [encode, decodeWord_iType_rt decodesWithRt_blez, fRs_iType, fImm_iType]
  | bgtz rs imm => simp [encode, decodeWord_iType_rt decodesWithRt_bgtz, fRs_iType, fImm_iType]
  | jr rs => simp [encode, decodeWord_rType decodesSpecial_jr, fRs_rType]
  | jalr rs rd => simp [encode, decodeWord_rType decodesSpecial_jalr, fRs_rType, fRd_rType]
  | j index => simp [encode, decodeWord_jType decodesPrimary_j, fIndex_jType]
  | jal index => simp [encode, decodeWord_jType decodesPrimary_jal, fIndex_jType]
  | lb rs rt imm => simp [encode, decodeWord_iType decodesPrimary_lb, fRs_iType, fRt_iType, fImm_iType]
  | lh rs rt imm => simp [encode, decodeWord_iType decodesPrimary_lh, fRs_iType, fRt_iType, fImm_iType]
  | lw rs rt imm => simp [encode, decodeWord_iType decodesPrimary_lw, fRs_iType, fRt_iType, fImm_iType]
  | lbu rs rt imm => simp [encode, decodeWord_iType decodesPrimary_lbu, fRs_iType, fRt_iType, fImm_iType]
  | lhu rs rt imm => simp [encode, decodeWord_iType decodesPrimary_lhu, fRs_iType, fRt_iType, fImm_iType]
  | sb rs rt imm => simp [encode, decodeWord_iType decodesPrimary_sb, fRs_iType, fRt_iType, fImm_iType]
  | sh rs rt imm => simp [encode, decodeWord_iType decodesPrimary_sh, fRs_iType, fRt_iType, fImm_iType]
  | sw rs rt imm => simp [encode, decodeWord_iType decodesPrimary_sw, fRs_iType, fRt_iType, fImm_iType]

/-- Settles O1: decoding a word's bytes is decoding the word. -/
theorem decodeInvertsEncode : Obligations.DecodeInvertsEncode := by
  unfold Obligations.DecodeInvertsEncode
  intro i _
  exact ⟨decodeWord_encode i, (decodeBytes_bytesOfWord _).trans (decodeWord_encode i)⟩

/-- Settles O4: each of the twelve is a closed word. -/
theorem specWordsDecode : Obligations.SpecWordsDecode := by
  unfold Obligations.SpecWordsDecode
  decide

end Sys2Proof.Machine
end

section
/-! Recognising a word (rules R73, R80, R315): `opcode`, `funct` and, under three opcodes, `rt` fix the row of the opcode
table, so the control decoder, which sees those three fields alone, gives the controls of the instruction decoded. -/

namespace Sys2Proof.Machine

/-! ### Instructions of one row -/

/-- Two instructions that differ at most in their operands: one row of the opcode table, and the same controls. -/
structure SameRow (i i' : Instr) : Prop where
  mnemonic : i'.mnemonic = i.mnemonic
  controls : ∀ op fn rt, instrControls op fn rt i' = instrControls op fn rt i

/-- The opcodes under which `rt` takes part in recognising a word (rule R73). -/
def RtSelects (op : BitVec 6) : Prop := op = 0b000001#6 ∨ op = 0b000110#6 ∨ op = 0b000111#6

theorem decodeSpecial_sameRow {w w' : Word} {i : Instr} (h : decodeSpecial w = .instr i)
    (hfn : fFunct w' = fFunct w) : ∃ i', decodeSpecial w' = .instr i' ∧ SameRow i i' := by
  unfold decodeSpecial at h ⊢
  rw [hfn]
  split at h
  case h_27 => cases h
  all_goals
    cases h
    exact ⟨_, rfl, rfl, fun _ _ _ => rfl⟩

theorem decodeRegimm_sameRow {w w' : Word} {i : Instr} (h : decodeRegimm w = .instr i)
    (hrt : fRt w' = fRt w) : ∃ i', decodeRegimm w' = .instr i' ∧ SameRow i i' := by
  unfold decodeRegimm at h ⊢
  rw [hrt]
  split at h
  case h_3 => cases h
  all_goals
    cases h
    exact ⟨_, rfl, rfl, fun _ _ _ => rfl⟩

/-- Words that agree in the recognising fields are recognised alike (rule R73). -/
theorem decodeWord_sameRow {w w' : Word} {i : Instr} (h : decodeWord w = .instr i) (hop : fOpcode w' = fOpcode w)
    (hfn : fFunct w' = fFunct w) (hrt : RtSelects (fOpcode w) → fRt w' = fRt w) :
    ∃ i', decodeWord w' = .instr i' ∧ SameRow i i' := by
  unfold decodeWord at h ⊢
  rw [hop]
  split at h
  case h_1 => exact decodeSpecial_sameRow h hfn
  case h_2 hw => exact decodeRegimm_sameRow h (hrt (.inl hw))
  case h_7 hw =>
    rw [hrt (.inr (.inl hw))]
    split at h
    · next h0 => cases h; exact ⟨_, if_pos h0, rfl, fun _ _ _ => rfl⟩
    · cases h
  case h_8 hw =>
    rw [hrt (.inr (.inr hw))]
    split at h
    · next h0 => cases h; exact ⟨_, if_pos h0, rfl, fun _ _ _ => rfl⟩
    · cases h
  case h_25 => cases h
  all_goals
    cases h
    exact ⟨_, rfl, rfl, fun _ _ _ => rfl⟩

/-- Settles O5: outside the three opcodes the fields that must agree do not include `rt`. -/
theorem recognitionReadsOpcodeFunctRt : Obligations.RecognitionReadsOpcodeFunctRt := by
  unfold Obligations.RecognitionReadsOpcodeFunctRt
  intro w w' i h hop hfn hrt
  have hsel : RtSelects (fOpcode w) → fRt w' = fRt w := by
    rintro hsel
    obtain hrt | ⟨h1, h6, h7⟩ := hrt
    · exact hrt
    · obtain h | h | h := hsel
      · exact absurd h h1
      · exact absurd h h6
      · exact absurd h h7
  obtain ⟨i', hdec, hrow⟩ := decodeWord_sameRow h hop hfn hsel
  exact ⟨i', hdec, hrow.mnemonic⟩

/-! ### The control decoder (rules R73, R315) -/

/-- The word that the control decoder decodes. -/
def ctrlWord (w : Word) : Word := iType (fOpcode w) 0#5 (fRt w) (0#10 ++ fFunct w)

theorem ctrlDecoder_eq (w : Word) :
    ctrlDecoder (fOpcode w) (fFunct w) (fRt w) =
      match decodeWord (ctrlWord w) with
      | .instr i => instrControls (fOpcode w) (fFunct w) (fRt w) i
      | .rejected _ => idleControls (fOpcode w) (fFunct w) (fRt w) := by
  rw [ctrlDecoder, ctrlDecoder_word]
  rfl

theorem fOpcode_ctrlWord (w : Word) : fOpcode (ctrlWord w) = fOpcode w := fOpcode_iType ..
theorem fRt_ctrlWord (w : Word) : fRt (ctrlWord w) = fRt w := fRt_iType ..
theorem fFunct_ctrlWord (w : Word) : fFunct (ctrlWord w) = fFunct w := fFunct_iType_append ..

/-- The control decoder gives the controls of the instruction that the word decodes to. -/
theorem ctrlDecoder_of_instr {w : Word} {i : Instr} (h : decodeWord w = .instr i) :
    ctrlDecoder (fOpcode w) (fFunct w) (fRt w) = instrControls (fOpcode w) (fFunct w) (fRt w) i := by
  obtain ⟨i', hdec, hrow⟩ :=
    decodeWord_sameRow h (fOpcode_ctrlWord w) (fFunct_ctrlWord w) (fun _ => fRt_ctrlWord w)
  rw [ctrlDecoder_eq, hdec]
  exact hrow.controls ..

/-- The control decoder takes the inactive row for a word that decodes to nothing. -/
theorem ctrlDecoder_of_rejected {w : Word} {e : DecodeError} (h : decodeWord w = .rejected e) :
    ctrlDecoder (fOpcode w) (fFunct w) (fRt w) = idleControls (fOpcode w) (fFunct w) (fRt w) := by
  rw [ctrlDecoder_eq]
  cases hdec : decodeWord (ctrlWord w) with
  | rejected _ => rfl
  | instr i =>
    obtain ⟨_, hw, _⟩ := decodeWord_sameRow hdec (fOpcode_ctrlWord w).symm (fFunct_ctrlWord w).symm
      (fun _ => (fRt_ctrlWord w).symm)
    rw [h] at hw
    cases hw

end Sys2Proof.Machine
end

section
/-! The opcode table and the decoder are one map (rule R80). A row recognises a word by the word's `opcode`, `funct` and
`rt`; whatever a row recognises, the decoder takes to an instruction of that row, so no two rows recognise one word. -/

namespace Sys2Proof.Machine

/-- The row of an instruction. -/
def rowOf (i : Instr) : OpRow := { mnemonic := i.mnemonic, mask := i.mask, bits := i.matchBits }

/-! ### What a mask reads of a word -/

theorem and_mask_opcode (w : Word) : w &&& 0xFC000000#32 = fOpcode w ++ 0#26 := by
  refine BitVec.eq_of_getLsbD_eq fun i hi => ?_
  simp only [fOpcode, BitVec.getLsbD_and, BitVec.getLsbD_append, BitVec.getLsbD_extractLsb']
  interval_cases i <;> simp

theorem and_mask_funct (w : Word) : w &&& 0xFC00003F#32 = fOpcode w ++ 0#20 ++ fFunct w := by
  refine BitVec.eq_of_getLsbD_eq fun i hi => ?_
  simp only [fOpcode, fFunct, BitVec.getLsbD_and, BitVec.getLsbD_append, BitVec.getLsbD_extractLsb']
  interval_cases i <;> simp

theorem and_mask_rt (w : Word) : w &&& 0xFC1F0000#32 = fOpcode w ++ 0#5 ++ fRt w ++ 0#16 := by
  refine BitVec.eq_of_getLsbD_eq fun i hi => ?_
  simp only [fOpcode, fRt, BitVec.getLsbD_and, BitVec.getLsbD_append, BitVec.getLsbD_extractLsb']
  interval_cases i <;> simp

/-! ### What a row recognises is decoded to an instruction of the row -/

/-- The decoder takes every word that the row recognises to an instruction of that row. -/
def OpRowDecoded (w : Word) (r : OpRow) : Prop :=
  r.recognises w = true → ∃ i, decodeWord w = .instr i ∧ rowOf i = r

/-- A mask keeps the fields it covers. -/
theorem extract_of_and_mask {w m bits : Word} (h : w &&& m = bits) {start len : Nat}
    (hm : m.extractLsb' start len = BitVec.allOnes len) : w.extractLsb' start len = bits.extractLsb' start len := by
  rw [← h, BitVec.extractLsb'_and, hm, BitVec.and_allOnes]

theorem recognised_primary {w bits : Word} {m : String} {op : BitVec 6} {i : Word → Instr} (h : DecodesPrimary op i)
    (hop : fOpcode bits = op) (hrow : ∀ w, rowOf (i w) = { mnemonic := m, mask := 0xFC000000#32, bits := bits }) :
    OpRowDecoded w { mnemonic := m, mask := 0xFC000000#32, bits := bits } := by
  intro hr
  have hand : w &&& 0xFC000000#32 = bits := beq_iff_eq.mp hr
  have hopw : fOpcode w = fOpcode bits := extract_of_and_mask hand (by decide)
  exact ⟨i w, h w (hopw.trans hop), hrow w⟩

theorem recognised_special {w bits : Word} {m : String} {fn : BitVec 6} {i : Word → Instr} (h : DecodesSpecial fn i)
    (hop : fOpcode bits = 0b000000#6) (hfn : fFunct bits = fn)
    (hrow : ∀ w, rowOf (i w) = { mnemonic := m, mask := 0xFC00003F#32, bits := bits }) :
    OpRowDecoded w { mnemonic := m, mask := 0xFC00003F#32, bits := bits } := by
  intro hr
  have hand : w &&& 0xFC00003F#32 = bits := beq_iff_eq.mp hr
  have hopw : fOpcode w = fOpcode bits := extract_of_and_mask hand (by decide)
  have hfnw : fFunct w = fFunct bits := extract_of_and_mask hand (by decide)
  exact ⟨i w, h w (hopw.trans hop) (hfnw.trans hfn), hrow w⟩

theorem recognised_withRt {w bits : Word} {m : String} {op : BitVec 6} {rt : Reg} {i : Word → Instr}
    (h : DecodesWithRt op rt i) (hop : fOpcode bits = op) (hrt : fRt bits = rt)
    (hrow : ∀ w, rowOf (i w) = { mnemonic := m, mask := 0xFC1F0000#32, bits := bits }) :
    OpRowDecoded w { mnemonic := m, mask := 0xFC1F0000#32, bits := bits } := by
  intro hr
  have hand : w &&& 0xFC1F0000#32 = bits := beq_iff_eq.mp hr
  have hopw : fOpcode w = fOpcode bits := extract_of_and_mask hand (by decide)
  have hrtw : fRt w = fRt bits := extract_of_and_mask hand (by decide)
  exact ⟨i w, h w (hopw.trans hop) (hrtw.trans hrt), hrow w⟩

/-- Every row of the table, in its order. -/
theorem opcodeTable_decoded (w : Word) : ∀ r ∈ opcodeTable, OpRowDecoded w r := by
  simp only [opcodeTable, List.forall_mem_cons]
  exact ⟨
    recognised_special decodesSpecial_add rfl rfl fun _ => rfl,
    recognised_special decodesSpecial_addu rfl rfl fun _ => rfl,
    recognised_special decodesSpecial_sub rfl rfl fun _ => rfl,
    recognised_special decodesSpecial_subu rfl rfl fun _ => rfl,
    recognised_primary decodesPrimary_addi rfl fun _ => rfl,
    recognised_primary decodesPrimary_addiu rfl fun _ => rfl,
    recognised_special decodesSpecial_and rfl rfl fun _ => rfl,
    recognised_special decodesSpecial_or rfl rfl fun _ => rfl,
    recognised_special decodesSpecial_xor rfl rfl fun _ => rfl,
    recognised_special decodesSpecial_nor rfl rfl fun _ => rfl,
    recognised_special decodesSpecial_sll rfl rfl fun _ => rfl,
    recognised_special decodesSpecial_srl rfl rfl fun _ => rfl,
    recognised_special decodesSpecial_sra rfl rfl fun _ => rfl,
    recognised_special decodesSpecial_sllv rfl rfl fun _ => rfl,
    recognised_special decodesSpecial_srlv rfl rfl fun _ => rfl,
    recognised_special decodesSpecial_srav rfl rfl fun _ => rfl,
    recognised_primary decodesPrimary_andi rfl fun _ => rfl,
    recognised_primary decodesPrimary_ori rfl fun _ => rfl,
    recognised_primary decodesPrimary_xori rfl fun _ => rfl,
    recognised_special decodesSpecial_mult rfl rfl fun _ => rfl,
    recognised_special decodesSpecial_multu rfl rfl fun _ => rfl,
    recognised_special decodesSpecial_div rfl rfl fun _ => rfl,
    recognised_special decodesSpecial_divu rfl rfl fun _ => rfl,
    recognised_special decodesSpecial_mfhi rfl rfl fun _ => rfl,
    recognised_special decodesSpecial_mthi rfl rfl fun _ => rfl,
    recognised_special decodesSpecial_mflo rfl rfl fun _ => rfl,
    recognised_special decodesSpecial_mtlo rfl rfl fun _ => rfl,
    recognised_special decodesSpecial_slt rfl rfl fun _ => rfl,
    recognised_special decodesSpecial_sltu rfl rfl fun _ => rfl,
    recognised_primary decodesPrimary_slti rfl fun _ => rfl,
    recognised_primary decodesPrimary_sltiu rfl fun _ => rfl,
    recognised_primary decodesPrimary_lui rfl fun _ => rfl,
    recognised_withRt decodesWithRt_bltz rfl rfl fun _ => rfl,
    recognised_withRt decodesWithRt_bgez rfl rfl fun _ => rfl,
    recognised_primary decodesPrimary_beq rfl fun _ => rfl,
    recognised_primary decodesPrimary_bne rfl fun _ => rfl,
    recognised_withRt decodesWithRt_blez rfl rfl fun _ => rfl,
    recognised_withRt decodesWithRt_bgtz rfl rfl fun _ => rfl,
    recognised_special decodesSpecial_jr rfl rfl fun _ => rfl,
    recognised_special decodesSpecial_jalr rfl rfl fun _ => rfl,
    recognised_primary decodesPrimary_j rfl fun _ => rfl,
    recognised_primary decodesPrimary_jal rfl fun _ => rfl,
    recognised_primary decodesPrimary_lb rfl fun _ => rfl,
    recognised_primary decodesPrimary_lh rfl fun _ => rfl,
    recognised_primary decodesPrimary_lw rfl fun _ => rfl,
    recognised_primary decodesPrimary_lbu rfl fun _ => rfl,
    recognised_primary decodesPrimary_lhu rfl fun _ => rfl,
    recognised_primary decodesPrimary_sb rfl fun _ => rfl,
    recognised_primary decodesPrimary_sh rfl fun _ => rfl,
    recognised_primary decodesPrimary_sw rfl fun _ => rfl,
    nofun⟩

/-! ### The row of the instruction decoded recognises the word -/

theorem rowOf_recognises_special {w : Word} {i : Instr} (hop : fOpcode w = 0b000000#6)
    (h : decodeSpecial w = .instr i) : (rowOf i).recognises w = true := by
  unfold decodeSpecial at h
  split at h
  case h_27 => cases h
  all_goals
    next hfn =>
      cases h
      exact beq_iff_eq.mpr ((and_mask_funct w).trans (by rw [hop, hfn]; rfl))

theorem rowOf_recognises_regimm {w : Word} {i : Instr} (hop : fOpcode w = 0b000001#6)
    (h : decodeRegimm w = .instr i) : (rowOf i).recognises w = true := by
  unfold decodeRegimm at h
  split at h
  case h_3 => cases h
  all_goals
    next hrt =>
      cases h
      exact beq_iff_eq.mpr ((and_mask_rt w).trans (by rw [hop, hrt]; rfl))

theorem rowOf_recognises {w : Word} {i : Instr} (h : decodeWord w = .instr i) : (rowOf i).recognises w = true := by
  unfold decodeWord at h
  split at h
  case h_1 hop => exact rowOf_recognises_special hop h
  case h_2 hop => exact rowOf_recognises_regimm hop h
  case h_7 hop | h_8 hop =>
    split at h
    · next hrt =>
      cases h
      exact beq_iff_eq.mpr ((and_mask_rt w).trans (by rw [hop, hrt]; rfl))
    · cases h
  case h_25 => cases h
  all_goals
    next hop =>
      cases h
      exact beq_iff_eq.mpr ((and_mask_opcode w).trans (by rw [hop]; rfl))

/-! ### The statement -/

theorem rowOf_mem_opcodeTable (i : Instr) : rowOf i ∈ opcodeTable := by
  cases i <;> exact of_decide_eq_true rfl

theorem opcodeTable_nodup : opcodeTable.Nodup := by decide

/-- A list without repetitions holds one element that passes a test if one does and no other can. -/
theorem filter_eq_singleton {α : Type} {l : List α} {p : α → Bool} {a : α} (hl : l.Nodup) (ha : a ∈ l)
    (hpa : p a = true) (huniq : ∀ b ∈ l, p b = true → b = a) : l.filter p = [a] := by
  refine List.perm_singleton.mp ((List.perm_ext_iff_of_nodup (hl.filter p) (List.nodup_singleton a)).mpr fun b => ?_)
  rw [List.mem_filter, List.mem_singleton]
  constructor
  · rintro ⟨hb, hpb⟩
    exact huniq b hb hpb
  · rintro rfl
    exact ⟨ha, hpa⟩

/-- Settles O2: what a row recognises is an instruction of that row, so the row of the instruction decoded is the
only one, and there is none for a rejected word. -/
theorem decodeAgreesWithOpcodeTable : Obligations.DecodeAgreesWithOpcodeTable := by
  unfold Obligations.DecodeAgreesWithOpcodeTable
  intro w
  refine ⟨fun i hi => ?accepted, fun e he => ?rejected⟩
  case accepted =>
    refine filter_eq_singleton (a := rowOf i) opcodeTable_nodup (rowOf_mem_opcodeTable i) (rowOf_recognises hi) ?_
    intro r hr hrec
    obtain ⟨i', hi', hrow⟩ := opcodeTable_decoded w r hr hrec
    rw [← hrow, Decoded.instr.inj (hi'.symm.trans hi)]
  case rejected =>
    rw [List.filter_eq_nil_iff]
    intro r hr hrec
    obtain ⟨i', hi', -⟩ := opcodeTable_decoded w r hr hrec
    rw [he] at hi'
    cases hi'

end Sys2Proof.Machine
end

section
/-! What an instruction can do, said once (rules R22, R25, R27, R47, R160, R180). The 50 instructions have five kinds of
effect; `effect` names the effect of each on a state, `Effect.run` carries it out, and `exec_eq_run` ties the two to
`exec`. A fact about every instruction is then a fact about five effects. -/

namespace Sys2Proof.Machine

/-- The five kinds of effect. -/
inductive Effect where
  /-- `x[r] <- v`, in sequence. -/
  | write (r : Reg) (v : Word)
  /-- A load of `n` bytes at `a` into `x[r]`, in sequence. -/
  | load (r : Reg) (a : Word) (n : Nat) (ext : BitVec (8 * n) → Word)
  /-- A store of `n` bytes at `a`, in sequence. -/
  | store (a : Word) (n : Nat) (v : BitVec (8 * n))
  /-- `HI` and `LO`, those that are given, in sequence. -/
  | hiLo (hi lo : Option Word)
  /-- A control transfer, with the register that takes the link; `checked` if the target comes from a register. -/
  | transfer (target : Word) (link : Option Reg) (checked : Bool)

/-- Both `HI` and `LO`, from a pair. -/
def Effect.pair (p : Word × Word) : Effect := .hiLo p.1 p.2

/-- The link, where there is one (rule R185). -/
def State.link (s : State) : Option Reg → State
  | none => s
  | some r => s.writeBack r s.linkValue

/-- Carry an effect out. -/
def Effect.run (s : State) : Effect → Result
  | .write r v => .next (s.writeBack r v).advance
  | .load r a n ext => s.load r a n ext
  | .store a n v => s.store a n v
  | .hiLo hi lo => .next (s.setHiLo (hi.getD s.hi, lo.getD s.lo)).advance
  | .transfer target link false => s.controlTransfer (.next ((s.link link).advanceTo target true))
  | .transfer target link true => s.jumpRegister target (s.link link)

/-- The target of a branch whose condition is `c` (rule R160). -/
def State.branchNext (s : State) (c : Bool) (imm : Imm16) : Word := if c then s.branchTarget imm else s.npc + 4#32

/-- The effect of each instruction. -/
def effect (s : State) : Instr → Effect
  | .add rs rt rd => .write rd (s.x rs + s.x rt)
  | .addu rs rt rd => .write rd (s.x rs + s.x rt)
  | .sub rs rt rd => .write rd (s.x rs - s.x rt)
  | .subu rs rt rd => .write rd (s.x rs - s.x rt)
  | .addi rs rt imm => .write rt (s.x rs + sext16 imm)
  | .addiu rs rt imm => .write rt (s.x rs + sext16 imm)
  | .and rs rt rd => .write rd (s.x rs &&& s.x rt)
  | .or rs rt rd => .write rd (s.x rs ||| s.x rt)
  | .xor rs rt rd => .write rd (s.x rs ^^^ s.x rt)
  | .nor rs rt rd => .write rd (~~~(s.x rs ||| s.x rt))
  | .sll rt rd shamt => .write rd (s.x rt <<< shamt.toNat)
  | .srl rt rd shamt => .write rd (s.x rt >>> shamt.toNat)
  | .sra rt rd shamt => .write rd ((s.x rt).sshiftRight shamt.toNat)
  | .sllv rs rt rd => .write rd (s.x rt <<< (s.shiftAmount rs).toNat)
  | .srlv rs rt rd => .write rd (s.x rt >>> (s.shiftAmount rs).toNat)
  | .srav rs rt rd => .write rd ((s.x rt).sshiftRight (s.shiftAmount rs).toNat)
  | .andi rs rt imm => .write rt (s.x rs &&& zext16 imm)
  | .ori rs rt imm => .write rt (s.x rs ||| zext16 imm)
  | .xori rs rt imm => .write rt (s.x rs ^^^ zext16 imm)
  | .mult rs rt => .pair (multResult (s.x rs) (s.x rt))
  | .multu rs rt => .pair (multuResult (s.x rs) (s.x rt))
  | .div rs rt => .pair (divResult (s.x rs) (s.x rt))
  | .divu rs rt => .pair (divuResult (s.x rs) (s.x rt))
  | .mfhi rd => .write rd s.hi
  | .mthi rs => .hiLo (s.x rs) none
  | .mflo rd => .write rd s.lo
  | .mtlo rs => .hiLo none (s.x rs)
  | .slt rs rt rd => .write rd (boolWord (signedLess (s.x rs) (s.x rt)))
  | .sltu rs rt rd => .write rd (boolWord (unsignedLess (s.x rs) (s.x rt)))
  | .slti rs rt imm => .write rt (boolWord (signedLess (s.x rs) (sext16 imm)))
  | .sltiu rs rt imm => .write rt (boolWord (unsignedLess (s.x rs) (sext16 imm)))
  | .lui rt imm => .write rt (upper16 imm)
  | .bltz rs imm => .transfer (s.branchNext (condLtz (s.x rs)) imm) none false
  | .bgez rs imm => .transfer (s.branchNext (condGez (s.x rs)) imm) none false
  | .beq rs rt imm => .transfer (s.branchNext (condEq (s.x rs) (s.x rt)) imm) none false
  | .bne rs rt imm => .transfer (s.branchNext (condNe (s.x rs) (s.x rt)) imm) none false
  | .blez rs imm => .transfer (s.branchNext (condLez (s.x rs)) imm) none false
  | .bgtz rs imm => .transfer (s.branchNext (condGtz (s.x rs)) imm) none false
  | .jr rs => .transfer (s.x rs) none true
  | .jalr rs rd => .transfer (s.x rs) (some rd) true
  | .j index => .transfer (s.jumpTarget index) none false
  | .jal index => .transfer (s.jumpTarget index) (some 31#5) false
  | .lb rs rt imm => .load rt (s.effectiveAddress rs imm) 1 (fun v => v.signExtend 32)
  | .lh rs rt imm => .load rt (s.effectiveAddress rs imm) 2 (fun v => v.signExtend 32)
  | .lw rs rt imm => .load rt (s.effectiveAddress rs imm) 4 (fun v => v)
  | .lbu rs rt imm => .load rt (s.effectiveAddress rs imm) 1 (fun v => v.setWidth 32)
  | .lhu rs rt imm => .load rt (s.effectiveAddress rs imm) 2 (fun v => v.setWidth 32)
  | .sb rs rt imm => .store (s.effectiveAddress rs imm) 1 ((s.x rt).extractLsb' 0 8)
  | .sh rs rt imm => .store (s.effectiveAddress rs imm) 2 ((s.x rt).extractLsb' 0 16)
  | .sw rs rt imm => .store (s.effectiveAddress rs imm) 4 (s.x rt)

/-- The meaning of an instruction is its effect, carried out. -/
theorem exec_eq_run (i : Instr) (s : State) : exec i s = (effect s i).run s := by
  cases i <;> rfl

/-! ### What the tables of the spec say of an effect -/

/-- The register that an effect writes. -/
def Effect.dest : Effect → Option Reg
  | .write r _ => some r
  | .load r _ _ _ => some r
  | .store _ _ _ => none
  | .hiLo _ _ => none
  | .transfer _ link _ => link

def Effect.isTransfer : Effect → Bool
  | .transfer _ _ _ => true
  | _ => false

def Effect.writesHi : Effect → Bool
  | .hiLo hi _ => hi.isSome
  | _ => false

def Effect.writesLo : Effect → Bool
  | .hiLo _ lo => lo.isSome
  | _ => false

def Effect.isStore : Effect → Bool
  | .store _ _ _ => true
  | _ => false

theorem effect_dest (s : State) (i : Instr) : (effect s i).dest = Instr.dest i := by cases i <;> rfl
theorem effect_isTransfer (s : State) (i : Instr) : (effect s i).isTransfer = Instr.isControlTransfer i := by
  cases i <;> rfl
theorem effect_writesHi (s : State) (i : Instr) : (effect s i).writesHi = Instr.writesHi i := by cases i <;> rfl
theorem effect_writesLo (s : State) (i : Instr) : (effect s i).writesLo = Instr.writesLo i := by cases i <;> rfl
theorem effect_isStore (s : State) (i : Instr) : (effect s i).isStore = (instrClass i == some .store) := by
  cases i <;> rfl

/-- The state an effect leaves, when it completes. -/
def Effect.after (s : State) : Effect → State
  | .write r v => (s.writeBack r v).advance
  | .load r a n ext => (s.writeBack r (ext (s.memRead a n))).advance
  | .store a n v => ((s.memWrite a n v).record (s.storeEvent a n v)).advance
  | .hiLo hi lo => (s.setHiLo (hi.getD s.hi, lo.getD s.lo)).advance
  | .transfer target link _ => (s.link link).advanceTo target true

/-- Why an effect does not complete in a state, if it does not. -/
def Effect.stop (s : State) : Effect → Option Result
  | .write _ _ => none
  | .load _ a n _ => (dataFault s.params a n).map .fault
  | .store a n _ => (dataFault s.params a n).map .fault
  | .hiLo _ _ => none
  | .transfer target _ checked =>
    if s.delaySlot then some (.refused .controlTransferInDelaySlot)
    else if checked && !instrAligned target then some (.fault (.misalignedInstructionAddress target)) else none

/-- All that an effect can answer. -/
theorem Effect.run_eq (s : State) (e : Effect) : e.run s = (e.stop s).getD (.next (e.after s)) := by
  cases e with
  | write r v => rfl
  | load r a n ext =>
    rcases s.load_cases r a n ext with ⟨f, hf, hrun⟩ | ⟨hf, hrun⟩ <;> simp [Effect.run, Effect.stop, Effect.after, hf, hrun]
  | store a n v =>
    rcases s.store_cases a n v with ⟨f, hf, hrun⟩ | ⟨hf, hrun⟩ <;> simp [Effect.run, Effect.stop, Effect.after, hf, hrun]
  | hiLo hi lo => rfl
  | transfer target link checked =>
    cases hslot : s.delaySlot <;> cases checked <;> cases halign : instrAligned target <;>
      simp [Effect.run, Effect.stop, Effect.after, State.controlTransfer, State.jumpRegister, hslot, halign]

theorem Effect.stop_ne_next (s t : State) (e : Effect) : e.stop s ≠ some (.next t) := by
  cases e with
  | transfer target link checked =>
    simp only [Effect.stop]
    split
    · simp
    · split <;> simp
  | _ => simp [Effect.stop]

/-- An effect completes where nothing stops it, and leaves `Effect.after`. -/
theorem Effect.run_next {s t : State} {e : Effect} : e.run s = .next t ↔ e.stop s = none ∧ t = e.after s := by
  rw [Effect.run_eq]
  cases hstop : e.stop s with
  | none => simp [eq_comm]
  | some r => simpa using fun (h : r = .next t) => e.stop_ne_next s t (h ▸ hstop)

/-- All the ways an instruction can go on. -/
theorem exec_next {i : Instr} {s t : State} :
    exec i s = .next t ↔ (effect s i).stop s = none ∧ t = (effect s i).after s := by
  rw [exec_eq_run, Effect.run_next]

theorem exec_eq_after {i : Instr} {s t : State} (h : exec i s = .next t) : t = (effect s i).after s :=
  (exec_next.mp h).2

/-- All the ways an instruction can stop. -/
theorem effect_stop_of_exec {i : Instr} {s : State} {r : Result} (h : exec i s = r) (hr : ∀ t, r ≠ .next t) :
    (effect s i).stop s = some r := by
  rw [exec_eq_run, Effect.run_eq] at h
  cases hstop : (effect s i).stop s with
  | none => exact absurd (by rw [← h, hstop]; rfl) (hr ((effect s i).after s))
  | some r' => rw [← h, hstop]; rfl

end Sys2Proof.Machine
end

section
/-! What every instruction changes and leaves unchanged (rules R22, R23, R25, R27, R41, R34, R260), read off the five
effects. -/

namespace Sys2Proof.Machine

/-! ### The link -/

@[simp] theorem State.link_npc (s : State) (l : Option Reg) : (s.link l).npc = s.npc := by cases l <;> rfl
@[simp] theorem State.link_hi (s : State) (l : Option Reg) : (s.link l).hi = s.hi := by cases l <;> rfl
@[simp] theorem State.link_lo (s : State) (l : Option Reg) : (s.link l).lo = s.lo := by cases l <;> rfl
@[simp] theorem State.link_ram (s : State) (l : Option Reg) : (s.link l).ram = s.ram := by cases l <;> rfl
@[simp] theorem State.link_rom (s : State) (l : Option Reg) : (s.link l).rom = s.rom := by cases l <;> rfl
@[simp] theorem State.link_params (s : State) (l : Option Reg) : (s.link l).params = s.params := by cases l <;> rfl
@[simp] theorem State.link_resetPin (s : State) (l : Option Reg) : (s.link l).resetPin = s.resetPin := by
  cases l <;> rfl

/-! ### Fields after an effect -/

theorem Effect.after_pc (s : State) (e : Effect) : (e.after s).pc = s.npc := by
  cases e <;> simp [Effect.after]

theorem Effect.after_delaySlot (s : State) (e : Effect) : (e.after s).delaySlot = e.isTransfer := by
  cases e <;> rfl

theorem Effect.after_npc (s : State) {e : Effect} (h : e.isTransfer = false) : (e.after s).npc = s.npc + 4#32 := by
  cases e with
  | transfer target link checked => cases h
  | _ => rfl

theorem Effect.after_hi (s : State) {e : Effect} (h : e.writesHi = false) : (e.after s).hi = s.hi := by
  cases e with
  | hiLo hi lo => cases hi with
    | none => rfl
    | some v => cases h
  | _ => simp [Effect.after]

theorem Effect.after_lo (s : State) {e : Effect} (h : e.writesLo = false) : (e.after s).lo = s.lo := by
  cases e with
  | hiLo hi lo => cases lo with
    | none => rfl
    | some v => cases h
  | _ => simp [Effect.after]

theorem Effect.after_ram (s : State) {e : Effect} (h : e.isStore = false) : (e.after s).ram = s.ram := by
  cases e with
  | store a n v => cases h
  | _ => simp [Effect.after]

theorem Effect.sameFixed_after (s : State) (e : Effect) : s.SameFixed (e.after s) := by
  cases e <;> simp [Effect.after, State.SameFixed]

/-! ### Sequencing (rules R25, R260) -/

/-- Settles O51: an effect hands control to `npc`, and leaves a delay slot exactly when it is a transfer. -/
theorem sequencingOfEveryInstruction : Obligations.SequencingOfEveryInstruction := by
  unfold Obligations.SequencingOfEveryInstruction
  intro i s t h
  obtain rfl := exec_eq_after h
  rw [← effect_isTransfer s i]
  exact ⟨Effect.after_pc s _, Effect.after_delaySlot s _, Effect.after_npc s⟩

/-! ### Fetching the instruction at `pc` -/

/-- Where the bytes from an aligned `pc` inside the window decode to `i`, the fetch gives a word that does. -/
theorem State.AtInstr.fetch {s : State} {i : Instr} (h : s.AtInstr i) :
    ∃ w, fetchWord s.params s.rom s.pc = .word w ∧ decodeWord w = .instr i := by
  obtain ⟨-, halign, hlow, hhigh, b0, b1, b2, b3, h0, h1, h2, h3, hdec⟩ := h
  refine ⟨wordOfBytes b0 b1 b2 b3, fetchWord_word.mpr ⟨?window, ?word, ?aligned⟩, hdec⟩
  case window => simp [Params.instrInside, hlow, hhigh]
  case word => simp [romWord, halign, h0, h1, h2, h3]
  case aligned => simpa [instrAligned] using halign

/-- Settles O6: the fetch gives a word of the instruction. -/
theorem stepRunsDecodedInstruction : Obligations.StepRunsDecodedInstruction := by
  unfold Obligations.StepRunsDecodedInstruction
  intro s i _ h
  obtain ⟨w, hfetch, hdec⟩ := h.fetch
  simp [step, h.1, hfetch, hdec]

/-- Settles O50: two steps, each the sequencing of its instruction. -/
theorem delaySlotExecutesOnce : Obligations.DelaySlotExecutesOnce := by
  unfold Obligations.DelaySlotExecutesOnce
  intro s t u i j hi _ hexec hj hjt hexec'
  obtain ⟨hpc, -, -⟩ := sequencingOfEveryInstruction i s t hexec
  obtain ⟨hpc', hslot, hnpc⟩ := sequencingOfEveryInstruction j t u hexec'
  exact ⟨(stepRunsDecodedInstruction s i rfl hi).trans hexec, hpc, (stepRunsDecodedInstruction t j rfl hj).trans hexec',
    hpc', hnpc hjt, hslot.trans hjt⟩

/-! ### Data memory, program and parameters (rules R34, R41) -/

/-- Settles O47: an effect that is no store leaves the data memory; a step is an effect, a reset or a no-operation. -/
theorem onlyStoresChangeMemory : Obligations.OnlyStoresChangeMemory := by
  unfold Obligations.OnlyStoresChangeMemory
  refine ⟨fun i s t h hclass => ?memory, fun s t h => ?fixed⟩
  case memory =>
    obtain rfl := exec_eq_after h
    exact Effect.after_ram s (by rw [effect_isStore]; simpa using hclass)
  case fixed =>
    obtain ⟨-, rfl⟩ | ⟨-, w, -, ⟨i, -, hexec⟩ | ⟨e, -, -, rfl⟩⟩ := step_next.mp h
    · exact ⟨rfl, rfl, rfl⟩
    · obtain rfl := exec_eq_after hexec
      exact Effect.sameFixed_after s _
    · exact ⟨rfl, rfl, rfl⟩

/-! ### `HI` and `LO` (rule R27) -/

/-- Only mfhi and mflo have an effect that depends on `HI` and `LO`. -/
theorem effect_withHiLo (s : State) (h l : Word) {i : Instr} (hhi : ∀ rd, i ≠ .mfhi rd) (hlo : ∀ rd, i ≠ .mflo rd) :
    effect { s with hi := h, lo := l } i = effect s i := by
  cases i with
  | mfhi rd => exact absurd rfl (hhi rd)
  | mflo rd => exact absurd rfl (hlo rd)
  | _ => rfl

theorem Effect.stop_withHiLo (s : State) (h l : Word) (e : Effect) :
    e.stop { s with hi := h, lo := l } = e.stop s := by cases e <;> rfl

theorem Effect.after_withHiLo (s : State) (h l : Word) (e : Effect) :
    e.after { s with hi := h, lo := l } =
      { e.after s with hi := if e.writesHi then (e.after s).hi else h, lo := if e.writesLo then (e.after s).lo else l } := by
  cases e with
  | hiLo hi lo => cases hi <;> cases lo <;> rfl
  | transfer target link checked => cases link <;> rfl
  | _ => rfl

/-- Settles O46: the effect is the same whatever `HI` and `LO` hold, and overwrites those of the two that it writes. -/
theorem hiLoWritersAndReaders : Obligations.HiLoWritersAndReaders := by
  unfold Obligations.HiLoWritersAndReaders
  intro i s t h
  obtain ⟨hstop, rfl⟩ := exec_next.mp h
  rw [← effect_writesHi s i, ← effect_writesLo s i]
  refine ⟨Effect.after_hi s, Effect.after_lo s, fun hhi hlo h l =>
    ⟨(effect s i).after { s with hi := h, lo := l }, ?runs, ?same, ?hi, ?lo⟩⟩
  case runs =>
    rw [exec_eq_run, effect_withHiLo s h l hhi hlo, Effect.run_eq, Effect.stop_withHiLo, hstop]
    rfl
  all_goals rw [Effect.after_withHiLo]

/-! ### General registers: the writes column (rules R22, R23) -/

theorem State.writesReg_advanceTo (s : State) (r : Reg) (v target : Word) (slot : Bool) :
    s.WritesReg ((s.writeBack r v).advanceTo target slot) r v := s.writesReg_writeBack r v

theorem Effect.writesReg_after (s : State) {e : Effect} {r : Reg} (h : e.dest = some r) :
    ∃ v, s.WritesReg (e.after s) r v := by
  cases e with
  | write q v => cases h; exact ⟨v, s.writesReg_writeBack r v⟩
  | load q a n ext => cases h; exact ⟨_, s.writesReg_writeBack r _⟩
  | store a n v => cases h
  | hiLo hi lo => cases h
  | transfer target link checked => cases h; exact ⟨_, s.writesReg_advanceTo r _ _ _⟩

theorem Effect.sameRegs_after (s : State) {e : Effect} (h : e.dest = none) :
    s.SameRegs (e.after s) ∧
      ((e.after s).events = s.events ∨ ∃ a be d, (e.after s).events = s.events ++ [.memWrite a be d]) := by
  cases e with
  | write q v => cases h
  | load q a n ext => cases h
  | store a n v => exact ⟨fun _ => rfl, .inr ⟨_, _, _, rfl⟩⟩
  | hiLo hi lo => exact ⟨fun _ => rfl, .inl rfl⟩
  | transfer target link checked => cases h; exact ⟨fun _ => rfl, .inl rfl⟩

theorem grfWE_eq_dest_isSome (op fn : BitVec 6) (rt : Reg) (i : Instr) :
    (instrControls op fn rt i).grfWE = (Instr.dest i).isSome := by cases i <;> rfl

/-- Settles O48: the destination of an effect is that of the writes column, and `GRFWE` follows the class. -/
theorem registerWritesAreTheDestination : Obligations.RegisterWritesAreTheDestination := by
  unfold Obligations.RegisterWritesAreTheDestination
  refine ⟨fun i s t h => ?registers, fun w i h => ?control⟩
  case registers =>
    obtain rfl := exec_eq_after h
    rw [← effect_dest s i]
    exact ⟨fun r => Effect.writesReg_after s, Effect.sameRegs_after s⟩
  case control => rw [ctrlDecoder_of_instr h, grfWE_eq_dest_isSome]

/-! ### General registers: the reads column (rule R22) -/

/-- The effect of an instruction depends on no register but those it reads. -/
theorem effect_withGpr {s : State} {g : Regs} {i : Instr} (h : ∀ r ∈ Instr.reads i, readReg g r = s.x r) :
    effect { s with gpr := g } i = effect s i := by
  have hx : ∀ r ∈ Instr.reads i, State.x { s with gpr := g } r = s.x r := h
  cases i <;> simp_all [effect, Instr.reads, State.shiftAmount, State.effectiveAddress, State.branchNext,
    State.branchTarget, State.jumpTarget]

theorem Effect.stop_withGpr (s : State) (g : Regs) (e : Effect) : e.stop { s with gpr := g } = e.stop s := by
  cases e <;> rfl

theorem Effect.after_withGpr (s : State) (g : Regs) (e : Effect) :
    e.after { s with gpr := g } = { e.after s with gpr := (e.after { s with gpr := g }).gpr } := by
  cases e with
  | transfer target link checked => cases link <;> rfl
  | _ => rfl

/-- The register written reads alike after a write to any two register files; register 0 reads 0 in both. -/
theorem readReg_writeReg_two (g g' : Regs) (r q : Reg) (v : Word) :
    readReg (writeReg g' r v) q = if some r = some q then readReg (writeReg g r v) q else readReg g' q := by
  by_cases hq : q = r
  · subst hq
    by_cases h0 : q = 0#5
    · subst h0
      simp
    · simp [readReg_writeReg, h0]
  · simp [readReg_writeReg, hq, Ne.symm hq]

theorem Effect.after_withGpr_x (s : State) (g : Regs) (e : Effect) (q : Reg) :
    (e.after { s with gpr := g }).x q = if e.dest = some q then (e.after s).x q else readReg g q := by
  cases e with
  | write r v => exact readReg_writeReg_two ..
  | load r a n ext => exact readReg_writeReg_two ..
  | store a n v => rfl
  | hiLo hi lo => rfl
  | transfer target link checked => cases link with
    | none => rfl
    | some r => exact readReg_writeReg_two ..

/-- An instruction on two states that differ in registers it does not read has the same effect, carried out on both. -/
theorem exec_withGpr {s : State} {g : Regs} {i : Instr} (h : ∀ r ∈ Instr.reads i, readReg g r = s.x r) :
    exec i { s with gpr := g } = ((effect s i).stop s).getD (.next ((effect s i).after { s with gpr := g })) := by
  rw [exec_eq_run, effect_withGpr h, Effect.run_eq, Effect.stop_withGpr]

/-- Settles O49: the two runs have one effect, which writes the same value to the destination. -/
theorem resultsDependOnReadRegisters : Obligations.ResultsDependOnReadRegisters := by
  unfold Obligations.ResultsDependOnReadRegisters
  intro i s g h
  rw [exec_withGpr h]
  refine ⟨fun t hexec => ?next, fun f hexec => ?fault, fun r hexec => ?refused⟩
  case next =>
    obtain ⟨hstop, rfl⟩ := exec_next.mp hexec
    rw [hstop, ← effect_dest s i]
    exact ⟨_, rfl, Effect.after_withGpr s g _, Effect.after_withGpr_x s g _⟩
  case fault => rw [effect_stop_of_exec hexec (by simp)]; rfl
  case refused => rw [effect_stop_of_exec hexec (by simp)]; rfl

end Sys2Proof.Machine
end

section
/-! Reset, fetch and the stops (rules R33, R81, R167, R186, R215, R240), division and the moves to `HI` and `LO` (rules
R133, R136, R138, R140), and the register jumps (rules R181, R182). -/

namespace Sys2Proof.Machine

/-! ### Reset (rules R33, R240, R241) -/

theorem readReg_resetGpr (q : Reg) : readReg State.reset.gpr q = 0#32 := by
  unfold readReg State.reset
  split
  · rfl
  · exact Vector.getElem_replicate _

/-- Settles O7: the fields of the two reset states; every one of the 31 places holds zero. -/
theorem resetStateValues : Obligations.ResetStateValues := by
  unfold Obligations.ResetStateValues
  refine ⟨rfl, rfl, readReg_resetGpr, rfl, rfl, fun _ => rfl, rfl, rfl, by decide, rfl, rfl, rfl, rfl, readReg_resetGpr,
    rfl, rfl, rfl, rfl, rfl⟩

/-- Settles O8: an active RESET takes the reset edge, which is `State.applyReset`. -/
theorem resetOverridesEverything : Obligations.ResetOverridesEverything := by
  unfold Obligations.ResetOverridesEverything
  intro s h
  refine ⟨s.applyReset, step_next.mpr (.inl ⟨h, rfl⟩), rfl, rfl, readReg_resetGpr, rfl, rfl, rfl, fun _ => rfl,
    ⟨rfl, rfl, rfl⟩, rfl⟩

/-! ### Fetching and decoding that stop (rules R81, R215) -/

theorem step_of_fetch_stop {s : State} {f : Fault} (hreset : s.resetPin = false)
    (hfetch : fetchWord s.params s.rom s.pc = .stop f) : step s = .fault f := by
  simp [step, hreset, hfetch]

theorem step_of_rejected {s : State} {w : Word} {e : DecodeError} (hreset : s.resetPin = false)
    (hfetch : fetchWord s.params s.rom s.pc = .word w) (hdec : decodeWord w = .rejected e) :
    step s = stepUnrecognised w s := by
  simp [step, hreset, hfetch, hdec]

theorem step_of_instr {s : State} {w : Word} {i : Instr} (hreset : s.resetPin = false)
    (hfetch : fetchWord s.params s.rom s.pc = .word w) (hdec : decodeWord w = .instr i) : step s = exec i s := by
  simp [step, hreset, hfetch, hdec]

/-- Settles O10: such a step is `stepUnrecognised`, a refusal or the sequential update alone. -/
theorem unrecognisedWordStops : Obligations.UnrecognisedWordStops := by
  unfold Obligations.UnrecognisedWordStops
  intro s w e hreset hfetch hdec
  rw [step_of_rejected hreset hfetch hdec, stepUnrecognised]
  refine ⟨fun h => by simp [h], fun h => ⟨s.advance, by simp [h], ⟨rfl, rfl, rfl⟩, fun _ => rfl, ⟨rfl, rfl⟩, fun _ => rfl,
    ⟨rfl, rfl, rfl⟩, rfl⟩⟩

/-- A fetch outside the window, or of a word that the program does not give (rule R43). -/
theorem fetchWord_outside {p : Params} {rom : Memory} {a : Word}
    (h : Params.instrInside p a = false ∨ romWord rom a = none) :
    fetchWord p rom a = .stop (.outsideInstructionMemory a) := by
  unfold fetchWord
  rcases h with h | h
  · simp [h]
  · cases Params.instrInside p a <;> simp [h]

theorem fetchWord_misaligned {p : Params} {rom : Memory} {a w : Word} (hin : Params.instrInside p a = true)
    (hw : romWord rom a = some w) (ha : instrAligned a = false) :
    fetchWord p rom a = .stop (.misalignedInstructionAddress a) := by
  simp [fetchWord, hin, hw, ha]

theorem instrInside_iff (p : Params) (a : Word) :
    Params.instrInside p a = true ↔ p.imBase ≤ a.toNat ∧ a.toNat < p.imBase + p.imSize := by
  simp [Params.instrInside]

theorem instrAligned_iff (a : Word) : instrAligned a = true ↔ a.toNat % 4 = 0 := by
  simp [instrAligned]

/-- Settles O11: the two stops of a fetch, in the order of rule R215. -/
theorem fetchStops : Obligations.FetchStops := by
  unfold Obligations.FetchStops
  intro s hreset
  refine ⟨fun h => ?outside, fun hlow hhigh hw halign => ?misaligned⟩
  case outside =>
    refine step_of_fetch_stop hreset (fetchWord_outside ?_)
    rcases h with h | h | h
    · exact .inl (by simp [Params.instrInside, Nat.not_le_of_lt h])
    · exact .inl (by simp [Params.instrInside, Nat.not_lt_of_le h])
    · exact .inr h
  case misaligned =>
    obtain ⟨w, hw⟩ := Option.ne_none_iff_exists'.mp hw
    refine step_of_fetch_stop hreset (fetchWord_misaligned ((instrInside_iff ..).mpr ⟨hlow, hhigh⟩) hw ?_)
    simpa [instrAligned] using halign

/-! ### Control transfers that stop (rules R167, R186) -/

theorem Effect.stop_of_delaySlot {s : State} {e : Effect} (ht : e.isTransfer = true) (hslot : s.delaySlot = true) :
    e.stop s = some (.refused .controlTransferInDelaySlot) := by
  cases e with
  | transfer target link checked => simp [Effect.stop, hslot]
  | _ => cases ht

/-- Settles O12: in a delay slot every transfer's effect is refused. -/
theorem transferInDelaySlotRefused : Obligations.TransferInDelaySlotRefused := by
  unfold Obligations.TransferInDelaySlotRefused
  intro i s ht hslot
  rw [exec_eq_run, Effect.run_eq, Effect.stop_of_delaySlot (by rw [effect_isTransfer, ht]) hslot]
  rfl

theorem Effect.stop_checked {s : State} {target : Word} {link : Option Reg} (hslot : s.delaySlot = false) :
    (Effect.transfer target link true).stop s =
      if instrAligned target then none else some (.fault (.misalignedInstructionAddress target)) := by
  cases h : instrAligned target <;> simp [Effect.stop, hslot, h]

/-- Settles O14: both jumps have a checked target. -/
theorem misalignedJumpTargetFaults : Obligations.MisalignedJumpTargetFaults := by
  unfold Obligations.MisalignedJumpTargetFaults
  intro s rs rd hslot halign
  have ha : instrAligned (s.x rs) = false := by simpa [instrAligned] using halign
  refine ⟨?jr, ?jalr⟩
  all_goals
    rw [exec_eq_run, Effect.run_eq, effect, Effect.stop_checked hslot, ha]
    rfl

/-! ### The register jumps (rules R181, R182) -/

/-- Settles O35: outside a delay slot, with an aligned target, nothing stops the jump. -/
theorem jumpRegisterResult : Obligations.JumpRegisterResult := by
  unfold Obligations.JumpRegisterResult
  refine ⟨fun s rs hslot halign => ⟨_, exec_next.mpr ⟨?completes, rfl⟩, s.onlyTransfers_advanceTo _⟩, decodesSpecial_jr⟩
  case completes => rw [effect, Effect.stop_checked hslot, (instrAligned_iff _).mpr halign]; rfl

/-- Settles O36: as for jr; the target is read before the link is written. -/
theorem jumpAndLinkRegisterResult : Obligations.JumpAndLinkRegisterResult := by
  unfold Obligations.JumpAndLinkRegisterResult
  refine ⟨fun s rs rd hslot halign => ⟨_, exec_next.mpr ⟨?completes, rfl⟩, s.onlyLinks_writeBack rd _⟩,
    decodesSpecial_jalr⟩
  case completes => rw [effect, Effect.stop_checked hslot, (instrAligned_iff _).mpr halign]; rfl

/-! ### Moves to `HI` and `LO` (rules R136, R138) -/

theorem exec_mthi (rs : Reg) (s : State) : exec (.mthi rs) s = .next (s.setHiLo (s.x rs, s.lo)).advance := rfl

theorem exec_mtlo (rs : Reg) (s : State) : exec (.mtlo rs) s = .next (s.setHiLo (s.hi, s.x rs)).advance := rfl

/-- Settles O31: each is the write of a pair of which one half is the old one. -/
theorem moveToHiLoResults : Obligations.MoveToHiLoResults := by
  unfold Obligations.MoveToHiLoResults
  exact ⟨fun s rs => ⟨⟨_, exec_mthi rs s, s.onlyWritesHiLo_setHiLo _⟩, ⟨_, exec_mtlo rs s, s.onlyWritesHiLo_setHiLo _⟩⟩,
    decodesSpecial_mthi, decodesSpecial_mtlo⟩

/-! ### Signed division (rules R133, R140) -/

theorem exec_div (rs rt : Reg) (s : State) :
    exec (.div rs rt) s = .next (s.setHiLo (divResult (s.x rs) (s.x rt))).advance := rfl

theorem divResult_open {a b : Word} (h : b = 0#32 ∨ a = 0x80000000#32 ∧ b = 0xFFFFFFFF#32) :
    divResult a b = Config.divCorner .div a b := by
  have hopen : divOpen a b = true := by simpa [divOpen] using h
  rw [divResult, if_pos hopen]

/-- Settles O29: in the three corners the pair written is the free value. -/
theorem divisionCornersComplete : Obligations.DivisionCornersComplete := by
  unfold Obligations.DivisionCornersComplete
  refine fun s rs rt => ⟨fun hrt => ?zero, fun hrs hrt => ?overflow, fun hrt => ?unsigned⟩
  case zero => exact ⟨_, exec_div rs rt s, divResult_open (.inl hrt) ▸ s.onlyWritesHiLo_setHiLo _⟩
  case overflow => exact ⟨_, exec_div rs rt s, divResult_open (.inr ⟨hrs, hrt⟩) ▸ s.onlyWritesHiLo_setHiLo _⟩
  case unsigned =>
    have hres : divuResult (s.x rs) (s.x rt) = Config.divCorner .divu (s.x rs) (s.x rt) := if_pos hrt
    exact ⟨_, exec_divu rs rt s, hres ▸ s.onlyWritesHiLo_setHiLo _⟩

/-- Outside the corners the results are those of the words' own signed division: both fit a word, since the one
quotient that does not, 2^31, is a corner (rule R133). -/
theorem divResult_eq {a b : Word} (hb : b ≠ 0#32) (hover : ¬(a = 0x80000000#32 ∧ b = 0xFFFFFFFF#32)) :
    divResult a b = (a.srem b, a.sdiv b) := by
  have hopen : ¬divOpen a b = true := by simpa [divOpen, hb] using hover
  have hne : a ≠ BitVec.intMin 32 ∨ b ≠ -1#32 := not_and_or.mp hover
  rw [divResult, if_neg hopen, ← BitVec.toInt_srem, ← BitVec.toInt_sdiv_of_ne_or_ne a b hne, BitVec.ofInt_toInt,
    BitVec.ofInt_toInt]

/-- A remainder of division rounded toward zero that is not 0 has the sign of the dividend (D12). -/
theorem tmod_neg_iff {a b : Int} (h : a.tmod b ≠ 0) : a.tmod b < 0 ↔ a < 0 := by
  have hdvd : ¬b ∣ a := fun hd => h (Int.tmod_eq_zero_of_dvd hd)
  have hsign : (a.tmod b).sign = a.sign := by rw [Int.sign_tmod, if_neg hdvd]
  rw [← Int.sign_eq_neg_one_iff_neg, ← Int.sign_eq_neg_one_iff_neg, hsign]

/-- Settles O27: the pair written is remainder and quotient of the signed division rounded toward zero. -/
theorem signedDivisionResult : Obligations.SignedDivisionResult := by
  unfold Obligations.SignedDivisionResult
  refine ⟨fun s rs rt hzero hover => ?div, decodesSpecial_div⟩
  case div =>
    have hexec := exec_div rs rt s
    rw [divResult_eq hzero hover] at hexec
    refine ⟨_, hexec, s.onlyWritesHiLo_setHiLo _, ?sum, ?size, ?sign⟩
    all_goals simp only [State.advance_hi, State.advance_lo, State.setHiLo_hi, State.setHiLo_lo, BitVec.toInt_srem]
    case sum =>
      have hne : s.x rs ≠ BitVec.intMin 32 ∨ s.x rt ≠ -1#32 := not_and_or.mp hover
      rw [BitVec.toInt_sdiv_of_ne_or_ne _ _ hne]
      exact (Int.tdiv_mul_add_tmod ..).symm
    case size =>
      have hpos : 0 < (s.x rt).toInt.natAbs := Int.natAbs_pos.mpr fun h => hzero (BitVec.eq_of_toInt_eq h)
      rw [Int.natAbs_tmod]
      exact Nat.mod_lt _ hpos
    case sign => exact tmod_neg_iff

end Sys2Proof.Machine
end

section
/-! Data accesses (rules R44 to R53, R190 to R199). A value of `n` bytes is its bytes, and a legal access stays inside one
aligned word, so what a load reads and what a store leaves is said byte by byte. -/

namespace Sys2Proof.Machine

/-! ### Values as bytes -/

/-- Two values of `n` bytes with the same bytes are equal. -/
theorem eq_of_bytes {n : Nat} {u v : BitVec (8 * n)}
    (h : ∀ k, k < n → u.extractLsb' (8 * k) 8 = v.extractLsb' (8 * k) 8) : u = v := by
  refine BitVec.eq_of_getLsbD_eq fun i hi => ?_
  have hbit := congrArg (fun b => b.getLsbD (i % 8)) (h (i / 8) (by omega))
  have hmod : i % 8 < 8 := Nat.mod_lt _ (by decide)
  simpa [BitVec.getLsbD_extractLsb', hmod, Nat.div_add_mod] using hbit

/-- The bytes of a part of a word. -/
theorem extract_extract {w : Nat} (x : BitVec w) {a b start len : Nat} (h : start + len ≤ b) :
    (x.extractLsb' a b).extractLsb' start len = x.extractLsb' (a + start) len := by
  refine BitVec.eq_of_getLsbD_eq fun i hi => ?_
  have hb : start + i < b := by omega
  simp [BitVec.getLsbD_extractLsb', hb, Nat.add_assoc]

/-! ### Reading (rules R45, R46) -/

/-- The bytes that an access inside one aligned word reads. -/
theorem State.memRead_byte (s : State) (a : Word) {n k : Nat} (hk : k < n) (hin : a.toNat % 4 + n ≤ 4) :
    (s.memRead a n).extractLsb' (8 * k) 8 = ramByte s.ram (a.toNat + k) := by
  have haddr : a.toNat - a.toNat % 4 + (a.toNat % 4 + k) = a.toNat + k := by omega
  rw [State.memRead, extract_extract _ (by omega), ← Nat.mul_add, ramWord_lane _ _ _ (by omega), haddr]

theorem State.memRead_one (s : State) (a : Word) : s.memRead a 1 = ramByte s.ram a.toNat :=
  BitVec.extractLsb'_eq_self.symm.trans (s.memRead_byte a (n := 1) (k := 0) (by decide) (by omega))

/-- A value of two bytes, put together from them. -/
theorem two_bytes (v : BitVec 16) : v = v.extractLsb' 8 8 ++ v.extractLsb' 0 8 := by
  refine BitVec.eq_of_getLsbD_eq fun i hi => ?_
  rw [BitVec.getLsbD_append, BitVec.getLsbD_extractLsb', BitVec.getLsbD_extractLsb']
  split
  · next h => simp [h]
  · have h8 : i - 8 < 8 := by omega
    rw [decide_eq_true h8, Bool.true_and, Nat.add_sub_cancel' (by omega)]

theorem State.memRead_two (s : State) {a : Word} (ha : a.toNat % 2 = 0) :
    s.memRead a 2 = ramByte s.ram (a.toNat + 1) ++ ramByte s.ram a.toNat := by
  have h0 := s.memRead_byte a (n := 2) (k := 0) (by decide) (by omega)
  have h1 := s.memRead_byte a (n := 2) (k := 1) (by decide) (by omega)
  exact (two_bytes _).trans (congrArg₂ (· ++ ·) h1 h0)

theorem State.memRead_four (s : State) {a : Word} (ha : a.toNat % 4 = 0) :
    s.memRead a 4 = ramByte s.ram (a.toNat + 3) ++ ramByte s.ram (a.toNat + 2) ++ ramByte s.ram (a.toNat + 1) ++
      ramByte s.ram a.toNat := by
  have h0 := s.memRead_byte a (n := 4) (k := 0) (by decide) (by omega)
  have h1 := s.memRead_byte a (n := 4) (k := 1) (by decide) (by omega)
  have h2 := s.memRead_byte a (n := 4) (k := 2) (by decide) (by omega)
  have h3 := s.memRead_byte a (n := 4) (k := 3) (by decide) (by omega)
  have hword := wordOfBytes_bytesOfWord (s.memRead a 4)
  rw [wordOfBytes] at hword
  rw [← h3, ← h2, ← h1]
  exact hword.symm.trans (congrArg (_ ++ ·) h0)

/-! ### Legal and illegal accesses (rules R51, R53, R215) -/

theorem State.DataLegal.dataFault_eq_none {s : State} {a : Word} {n : Nat} (h : s.DataLegal a n) :
    dataFault s.params a n = none :=
  (dataFault_none ..).mpr ⟨h.1, (Params.dataInside_iff ..).mpr h.2⟩

theorem dataFault_misaligned {p : Params} {a : Word} {n : Nat} (h : a.toNat % n ≠ 0) :
    dataFault p a n = some (.misalignedDataAccess a) := if_pos h

theorem dataFault_outside {p : Params} {a : Word} {n : Nat} (ha : a.toNat % n = 0)
    (h : a.toNat < p.dmBase ∨ p.dmBase + p.dmSize < a.toNat + n) :
    dataFault p a n = some (.outsideDataMemory a) := by
  have hout : ¬Params.dataInside p a n = true := by
    rw [Params.dataInside_iff]
    omega
  rw [dataFault, if_neg (not_not.mpr ha), if_neg hout]

/-- The address and the size of a data access. -/
def Effect.access : Effect → Option (Word × Nat)
  | .load _ a n _ => some (a, n)
  | .store a n _ => some (a, n)
  | _ => none

/-- A data access that is not legal stops. -/
theorem exec_of_dataFault {i : Instr} {s : State} {a : Word} {n : Nat} {f : Fault}
    (hacc : (effect s i).access = some (a, n)) (hf : dataFault s.params a n = some f) : exec i s = .fault f := by
  rw [exec_eq_run, Effect.run_eq]
  cases he : effect s i with
  | load r a' n' ext => rw [he] at hacc; cases hacc; simp [Effect.stop, hf]
  | store a' n' v => rw [he] at hacc; cases hacc; simp [Effect.stop, hf]
  | _ => rw [he] at hacc; cases hacc

/-- Settles O13: the two checks of a data access, for the size that each instruction has. -/
theorem illegalDataAccessFaults : Obligations.IllegalDataAccessFaults := by
  unfold Obligations.IllegalDataAccessFaults
  rintro s rs rt imm a rfl
  simp only [List.forall_mem_cons, List.not_mem_nil, false_imp_iff, implies_true, and_true]
  refine ⟨fun h => ?_, fun h => ?_, fun h => ?_, fun ha h => ?_, fun ha h => ?_⟩
  · have hf := dataFault_misaligned (p := s.params) h
    exact ⟨exec_of_dataFault rfl hf, exec_of_dataFault rfl hf, exec_of_dataFault rfl hf⟩
  · have hf := dataFault_misaligned (p := s.params) h
    exact ⟨exec_of_dataFault rfl hf, exec_of_dataFault rfl hf⟩
  · have hf := dataFault_outside (Nat.mod_one _) h
    exact ⟨exec_of_dataFault rfl hf, exec_of_dataFault rfl hf, exec_of_dataFault rfl hf⟩
  · have hf := dataFault_outside ha h
    exact ⟨exec_of_dataFault rfl hf, exec_of_dataFault rfl hf, exec_of_dataFault rfl hf⟩
  · have hf := dataFault_outside ha h
    exact ⟨exec_of_dataFault rfl hf, exec_of_dataFault rfl hf⟩

/-! ### Loads (rules R191 to R195) -/

/-- A legal load completes, and writes back any value that the extended bytes are shown to be. -/
theorem State.exists_onlyWritesReg_load {s : State} {o : Result} {r : Reg} {a : Word} {n : Nat}
    {ext : BitVec (8 * n) → Word} {v : Word} (ho : o = s.load r a n ext) (hlegal : s.DataLegal a n)
    (hv : ext (s.memRead a n) = v) : ∃ t, o = .next t ∧ s.OnlyWritesReg t r v :=
  State.exists_onlyWritesReg (ho.trans (State.load_next.mpr ⟨hlegal.dataFault_eq_none, rfl⟩)) hv

theorem exec_lb (rs rt : Reg) (imm : Imm16) (s : State) :
    exec (.lb rs rt imm) s = s.load rt (s.effectiveAddress rs imm) 1 (fun v => v.signExtend 32) := rfl

theorem exec_lh (rs rt : Reg) (imm : Imm16) (s : State) :
    exec (.lh rs rt imm) s = s.load rt (s.effectiveAddress rs imm) 2 (fun v => v.signExtend 32) := rfl

theorem exec_lw (rs rt : Reg) (imm : Imm16) (s : State) :
    exec (.lw rs rt imm) s = s.load rt (s.effectiveAddress rs imm) 4 (fun v => v) := rfl

theorem exec_lbu (rs rt : Reg) (imm : Imm16) (s : State) :
    exec (.lbu rs rt imm) s = s.load rt (s.effectiveAddress rs imm) 1 (fun v => v.setWidth 32) := rfl

theorem exec_lhu (rs rt : Reg) (imm : Imm16) (s : State) :
    exec (.lhu rs rt imm) s = s.load rt (s.effectiveAddress rs imm) 2 (fun v => v.setWidth 32) := rfl

/-- Sign extension is reading as signed, zero extension reading as unsigned (rule R12). -/
theorem signExtend_eq_ofInt {w : Nat} (v : BitVec w) : v.signExtend 32 = BitVec.ofInt 32 v.toInt := rfl

theorem setWidth_eq_ofNat {w : Nat} (v : BitVec w) : v.setWidth 32 = BitVec.ofNat 32 v.toNat :=
  (BitVec.ofNat_toNat ..).symm

/-- Settles O38: the byte read, extended. -/
theorem loadByteResults : Obligations.LoadByteResults := by
  unfold Obligations.LoadByteResults
  refine ⟨fun s rs rt imm hlegal => ⟨?lb, ?lbu⟩, decodesPrimary_lb, decodesPrimary_lbu⟩
  case lb =>
    refine State.exists_onlyWritesReg_load (exec_lb rs rt imm s) hlegal ?_
    exact (congrArg (BitVec.signExtend 32) (s.memRead_one _)).trans (signExtend_eq_ofInt _)
  case lbu =>
    refine State.exists_onlyWritesReg_load (exec_lbu rs rt imm s) hlegal ?_
    exact (congrArg (BitVec.setWidth 32) (s.memRead_one _)).trans (setWidth_eq_ofNat _)

/-- Settles O39: the two bytes read, the higher address above, extended. -/
theorem loadHalfResults : Obligations.LoadHalfResults := by
  unfold Obligations.LoadHalfResults
  refine ⟨fun s rs rt imm hlegal => ⟨?lh, ?lhu⟩, decodesPrimary_lh, decodesPrimary_lhu⟩
  case lh =>
    refine State.exists_onlyWritesReg_load (exec_lh rs rt imm s) hlegal ?_
    exact (congrArg (BitVec.signExtend 32) (s.memRead_two hlegal.1)).trans (signExtend_eq_ofInt _)
  case lhu =>
    refine State.exists_onlyWritesReg_load (exec_lhu rs rt imm s) hlegal ?_
    exact (congrArg (BitVec.setWidth 32) (s.memRead_two hlegal.1)).trans (setWidth_eq_ofNat _)

/-- Settles O40: the four bytes read. -/
theorem loadWordResult : Obligations.LoadWordResult := by
  unfold Obligations.LoadWordResult
  refine ⟨fun s rs rt imm hlegal => ?lw, decodesPrimary_lw⟩
  case lw => exact State.exists_onlyWritesReg_load (exec_lw rs rt imm s) hlegal (s.memRead_four hlegal.1)

/-! ### The bus of a store (rules R45, R49) -/

/-- The lanes that a legal store of 1, 2 or 4 bytes enables: the low two bits of the address fix which. -/
theorem getLsbD_byteen {a : Word} {n : Nat} (hn : n = 1 ∨ n = 2 ∨ n = 4) (ha : a.toNat % n = 0) {i : Nat} (hi : i < 4) :
    (byteen a n).getLsbD i = decide (a.toNat % 4 ≤ i ∧ i < a.toNat % 4 + n) := by
  have hlane : a.toNat % 4 < 4 := Nat.mod_lt _ (by decide)
  have halign : a.toNat % 4 % n = 0 := by rcases hn with rfl | rfl | rfl <;> omega
  unfold byteen
  generalize a.toNat % 4 = lane at hlane halign
  rcases hn with rfl | rfl | rfl <;> interval_cases lane <;> first | omega | (interval_cases i <;> rfl)

/-- One lane of the mask of the enabled lanes. -/
theorem laneMask_lane (be : BitVec 4) {j : Nat} (hj : j < 4) :
    (laneMask be).extractLsb' (8 * j) 8 = if be.getLsbD j then BitVec.allOnes 8 else 0#8 := by
  revert be
  interval_cases j <;> decide

/-- Where a mask is on, nothing of what the other lanes hold is left. -/
theorem extract_and_not {w start len : Nat} (x : BitVec w) {m : BitVec w} (h : m.extractLsb' start len = BitVec.allOnes len) :
    (x &&& ~~~m).extractLsb' start len = 0#len := by
  refine BitVec.eq_of_getLsbD_eq fun i hi => ?_
  have hbit := congrArg (fun b => b.getLsbD i) h
  simp only [BitVec.getLsbD_extractLsb', BitVec.getLsbD_allOnes, hi, decide_true, Bool.true_and] at hbit
  simp [BitVec.getLsbD_extractLsb', hbit]

/-- The value of `n` bytes, moved to its lanes: byte `k` stands in lane `addr mod 4 + k`. -/
theorem shifted_lane {n lane k : Nat} (v : BitVec (8 * n)) (hk : k < n) (hin : lane + n ≤ 4) :
    (v.setWidth 32 <<< (8 * lane)).extractLsb' (8 * (lane + k)) 8 = v.extractLsb' (8 * k) 8 := by
  refine BitVec.eq_of_getLsbD_eq fun i hi => ?_
  have hpos : 8 * (lane + k) + i - 8 * lane = 8 * k + i := by omega
  have h32 : 8 * (lane + k) + i < 32 := by omega
  have hnot : ¬8 * (lane + k) + i < 8 * lane := by omega
  have hlow : 8 * k + i < 32 := by omega
  simp only [BitVec.getLsbD_extractLsb', BitVec.getLsbD_shiftLeft, BitVec.getLsbD_setWidth, hi, h32, hnot, hpos, hlow,
    decide_true, decide_false, Bool.not_false, Bool.true_and]

/-- The bus shows the value in the enabled lanes (rule R49). -/
theorem busData_lane {a : Word} {n k : Nat} (hn : n = 1 ∨ n = 2 ∨ n = 4) (ha : a.toNat % n = 0) (v : BitVec (8 * n))
    (idle : Word) (hk : k < n) :
    (busData a n v idle).extractLsb' (8 * (a.toNat % 4 + k)) 8 = v.extractLsb' (8 * k) 8 := by
  have hin : a.toNat % 4 + n ≤ 4 := by rcases hn with rfl | rfl | rfl <;> omega
  have hmask : (laneMask (byteen a n)).extractLsb' (8 * (a.toNat % 4 + k)) 8 = BitVec.allOnes 8 := by
    rw [laneMask_lane _ (by omega), getLsbD_byteen hn ha (by omega), if_pos (by simpa using hk)]
  rw [busData, BitVec.extractLsb'_or, extract_and_not _ hmask, BitVec.or_zero, BitVec.extractLsb'_and, hmask,
    BitVec.and_allOnes, shifted_lane v hk hin]

end Sys2Proof.Machine
end

section
/-! Stores, and accesses of different widths to one word (rules R47, R48, R49, R55, R196 to R198). -/

namespace Sys2Proof.Machine

/-! ### What a legal store leaves -/

/-- Byte `k` of the low `n` bytes of a word. -/
theorem low_bytes (w : Word) {n k : Nat} (hk : k < n) :
    (w.extractLsb' 0 (8 * n)).extractLsb' (8 * k) 8 = w.extractLsb' (8 * k) 8 := by
  rw [extract_extract _ (by omega), Nat.zero_add]

theorem State.onlyStores_store {s : State} (hs : s.ram.wf = true) {a : Word} {n : Nat} (hn : n = 1 ∨ n = 2 ∨ n = 4)
    (ha : a.toNat % n = 0) (w : Word) :
    s.OnlyStores ((s.memWrite a n (w.extractLsb' 0 (8 * n))).record (s.storeEvent a n (w.extractLsb' 0 (8 * n)))).advance
      a n w := by
  have hram := State.ramByte_memWrite (Memory.wf_rising hs) a n (w.extractLsb' 0 (8 * n))
  refine ⟨fun k hk => ?stored, fun b hb => ?kept,
    ⟨_, _, rfl, fun i hi => getLsbD_byteen hn ha hi, fun k hk => ?bus⟩, fun _ => rfl, ⟨rfl, rfl⟩, ⟨rfl, rfl, rfl⟩, rfl,
    rfl, rfl⟩
  case stored =>
    have hin : a.toNat ≤ a.toNat + k ∧ a.toNat + k < a.toNat + n := by omega
    rw [State.advance_ram, State.record_ram, hram, if_pos hin, Nat.add_sub_cancel_left, low_bytes w hk]
  case kept =>
    have hout : ¬(a.toNat ≤ b ∧ b < a.toNat + n) := by omega
    rw [State.advance_ram, State.record_ram, hram, if_neg hout]
  case bus => rw [busData_lane hn ha _ _ hk, low_bytes w hk]

theorem State.store_of_legal {s : State} {a : Word} {n : Nat} (h : s.DataLegal a n) (v : BitVec (8 * n)) :
    s.store a n v = .next ((s.memWrite a n v).record (s.storeEvent a n v)).advance :=
  State.store_next.mpr ⟨h.dataFault_eq_none, rfl⟩

theorem State.load_of_legal {s : State} {a : Word} {n : Nat} (h : s.DataLegal a n) (r : Reg)
    (ext : BitVec (8 * n) → Word) : s.load r a n ext = .next (s.writeBack r (ext (s.memRead a n))).advance :=
  State.load_next.mpr ⟨h.dataFault_eq_none, rfl⟩

theorem exec_sb (rs rt : Reg) (imm : Imm16) (s : State) :
    exec (.sb rs rt imm) s = s.store (s.effectiveAddress rs imm) 1 ((s.x rt).extractLsb' 0 (8 * 1)) := rfl

theorem exec_sh (rs rt : Reg) (imm : Imm16) (s : State) :
    exec (.sh rs rt imm) s = s.store (s.effectiveAddress rs imm) 2 ((s.x rt).extractLsb' 0 (8 * 2)) := rfl

theorem exec_sw (rs rt : Reg) (imm : Imm16) (s : State) :
    exec (.sw rs rt imm) s = s.store (s.effectiveAddress rs imm) 4 ((s.x rt).extractLsb' 0 (8 * 4)) := by
  rw [BitVec.extractLsb'_eq_self]
  rfl

theorem State.exists_onlyStores {s : State} (hs : s.ram.wf = true) {o : Result} {a : Word} {n : Nat} {w : Word}
    (ho : o = s.store a n (w.extractLsb' 0 (8 * n))) (hn : n = 1 ∨ n = 2 ∨ n = 4) (hlegal : s.DataLegal a n) :
    ∃ t, o = .next t ∧ s.OnlyStores t a n w :=
  ⟨_, ho.trans (State.store_of_legal hlegal _), State.onlyStores_store hs hn hlegal.1 w⟩

/-- Settles O41: each stores the low bytes of `x[rt]`. -/
theorem storeResults : Obligations.StoreResults := by
  unfold Obligations.StoreResults
  refine ⟨fun s rs rt imm hs => ⟨?sb, ?sh, ?sw⟩, decodesPrimary_sb, decodesPrimary_sh, decodesPrimary_sw⟩
  case sb => exact State.exists_onlyStores hs (exec_sb rs rt imm s) (by decide)
  case sh => exact State.exists_onlyStores hs (exec_sh rs rt imm s) (by decide)
  case sw => exact State.exists_onlyStores hs (exec_sw rs rt imm s) (by decide)

/-! ### Reading after writing (rules R48, R55) -/

/-- A byte read where it was written. -/
theorem State.ramByte_memWrite_inside {s : State} (hs : s.ram.rising = true) (a : Word) {n k : Nat} (hk : k < n)
    (v : BitVec (8 * n)) : ramByte (s.memWrite a n v).ram (a.toNat + k) = v.extractLsb' (8 * k) 8 := by
  have hin : a.toNat ≤ a.toNat + k ∧ a.toNat + k < a.toNat + n := by omega
  rw [State.ramByte_memWrite hs, if_pos hin, Nat.add_sub_cancel_left]

/-- What an access inside one word reads after a write at its own address. -/
theorem State.memRead_memWrite {s : State} (hs : s.ram.rising = true) {a : Word} {n : Nat} (hin : a.toNat % 4 + n ≤ 4)
    (v : BitVec (8 * n)) : (s.memWrite a n v).memRead a n = v := by
  refine eq_of_bytes fun k hk => ?_
  rw [State.memRead_byte _ _ hk hin, State.ramByte_memWrite_inside hs a hk]

theorem toNat_add_lane {a : Word} (ha : a.toNat % 4 = 0) {lane : Nat} (hlane : lane < 4) :
    (a + BitVec.ofNat 32 lane).toNat = a.toNat + lane := by
  have hlt := a.isLt
  rw [BitVec.toNat_add, BitVec.toNat_ofNat]
  omega

/-- What an access to part of a word reads after the word is written. -/
theorem State.memRead_part {s : State} (hs : s.ram.rising = true) {a : Word} (ha : a.toNat % 4 = 0) (v : Word)
    {lane n : Nat} (hin : lane + n ≤ 4) (hlane : lane < 4) :
    (s.memWrite a 4 v).memRead (a + BitVec.ofNat 32 lane) n = v.extractLsb' (8 * lane) (8 * n) := by
  have haddr := toNat_add_lane ha hlane
  refine eq_of_bytes fun k hk => ?_
  rw [State.memRead_byte _ _ hk (by omega), haddr, Nat.add_assoc, State.ramByte_memWrite_inside hs a (by omega),
    extract_extract _ (by omega), ← Nat.mul_add]

theorem State.memWrite_rising {s : State} (hs : s.ram.rising = true) (a : Word) (n : Nat) (v : BitVec (8 * n)) :
    (s.memWrite a n v).ram.rising = true := ramPutBytes_rising hs _ _

/-- Settles O42: each clause byte by byte. -/
theorem mixedWidthAccess : Obligations.MixedWidthAccess := by
  unfold Obligations.MixedWidthAccess
  intro s a hwf ha
  have hs := Memory.wf_rising hwf
  have h1 := toNat_add_lane ha (lane := 1) (by decide)
  have h2 := toNat_add_lane ha (lane := 2) (by decide)
  have h3 := toNat_add_lane ha (lane := 3) (by decide)
  refine ⟨fun v k hk => ?bytes, fun v h hh => ?halves, fun b0 b1 b2 b3 => ?fourBytes, fun low high => ?twoHalves⟩
  case bytes => exact State.memRead_part hs ha v (by omega) hk
  case halves =>
    have hpart := State.memRead_part hs ha v (lane := 2 * h) (n := 2) (by omega) (by omega)
    rwa [← Nat.mul_assoc] at hpart
  case fourBytes =>
    have r0 := State.memWrite_rising hs a 1 b0
    have r1 := State.memWrite_rising r0 (a + 1#32) 1 b1
    have r2 := State.memWrite_rising r1 (a + 2#32) 1 b2
    rw [State.memRead_four _ ha]
    simp [-State.memWrite_ram, State.ramByte_memWrite r2, State.ramByte_memWrite r1, State.ramByte_memWrite r0,
      State.ramByte_memWrite hs, h1, h2, h3, BitVec.extractLsb'_eq_self]
  case twoHalves =>
    have r0 := State.memWrite_rising hs a 2 low
    have hbytes : ((s.memWrite a 2 low).memWrite (a + 2#32) 2 high).memRead a 4 =
        high.extractLsb' 8 8 ++ high.extractLsb' 0 8 ++ low.extractLsb' 8 8 ++ low.extractLsb' 0 8 := by
      rw [State.memRead_four _ ha]
      simp [-State.memWrite_ram, State.ramByte_memWrite r0, State.ramByte_memWrite hs, h2]
    rw [hbytes, ← two_bytes high]
    exact BitVec.append_assoc.trans (congrArg (high ++ ·) (two_bytes low).symm)

/-- The low bytes of a word, zero-extended, are the word under the mask that keeps them. -/
theorem setWidth_extract_eq_and {n : Nat} (hn : n ≤ 32) (w : Word) :
    (w.extractLsb' 0 n).setWidth 32 = w &&& BitVec.ofNat 32 (2 ^ n - 1) := by
  have hpow : 2 ^ n ≤ 2 ^ 32 := Nat.pow_le_pow_right (by decide) hn
  have hlt : 2 ^ n - 1 < 2 ^ 32 := by have := Nat.two_pow_pos n; omega
  refine BitVec.eq_of_toNat_eq ?_
  rw [BitVec.toNat_and, BitVec.toNat_ofNat, Nat.mod_eq_of_lt hlt, Nat.and_two_pow_sub_one_eq_mod, BitVec.toNat_setWidth,
    BitVec.extractLsb'_toNat, Nat.shiftRight_zero]
  exact Nat.mod_eq_of_lt (lt_of_lt_of_le (Nat.mod_lt _ (Nat.two_pow_pos n)) hpow)

/-- A legal store, then a load of the same address: the load's register takes the extension of the bytes stored. -/
theorem load_after_store {s : State} (hwf : s.ram.wf = true) {o : Result} {a : Word} {n : Nat} {v : BitVec (8 * n)}
    (ho : o = s.store a n v) (hn : n = 1 ∨ n = 2 ∨ n = 4) (hlegal : s.DataLegal a n) {dst : Reg}
    {ext : BitVec (8 * n) → Word} {o' : State → Result}
    (ho' : ∀ t : State, (∀ q, t.x q = s.x q) → o' t = t.load dst a n ext) :
    ∃ t u, o = .next t ∧ o' t = .next u ∧ u.x dst = if dst = 0#5 then 0#32 else ext v := by
  have hin : a.toNat % 4 + n ≤ 4 := by
    have halign := hlegal.1
    rcases hn with rfl | rfl | rfl <;> omega
  let t := ((s.memWrite a n v).record (s.storeEvent a n v)).advance
  have hread : t.memRead a n = v := State.memRead_memWrite (Memory.wf_rising hwf) hin v
  have hload := (ho' t fun _ => rfl).trans (State.load_of_legal (s := t) hlegal dst ext)
  refine ⟨t, _, ho.trans (State.store_of_legal hlegal v), hload, ?_⟩
  rw [hread, (t.writesReg_writeBack dst (ext v)).1]

/-- A load by the same address as a store, from a state with the store's registers. -/
theorem effectiveAddress_of_sameRegs {s t : State} (h : ∀ q, t.x q = s.x q) {rs base : Reg} {imm offset : Imm16}
    (haddr : s.effectiveAddress base offset = s.effectiveAddress rs imm) :
    t.effectiveAddress base offset = s.effectiveAddress rs imm := by
  rw [← haddr, State.effectiveAddress, h]
  rfl

/-- Settles O43: a store writes no register, so the load's address is the store's. -/
theorem loadAfterStore : Obligations.LoadAfterStore := by
  unfold Obligations.LoadAfterStore
  intro s rs rt base dst imm offset hwf haddr
  refine ⟨fun hlegal => ?byte, fun hlegal => ?half, fun hlegal => ?word⟩
  case byte =>
    have hmask : s.x rt &&& 0x000000FF#32 = ((s.x rt).extractLsb' 0 8).setWidth 32 :=
      (setWidth_extract_eq_and (n := 8) (by decide) _).symm
    rw [hmask]
    refine load_after_store hwf (exec_sb rs rt imm s) (by decide) hlegal fun t ht => ?_
    rw [exec_lbu, effectiveAddress_of_sameRegs ht haddr]
  case half =>
    have hmask : s.x rt &&& 0x0000FFFF#32 = ((s.x rt).extractLsb' 0 16).setWidth 32 :=
      (setWidth_extract_eq_and (n := 16) (by decide) _).symm
    rw [hmask]
    refine load_after_store hwf (exec_sh rs rt imm s) (by decide) hlegal fun t ht => ?_
    rw [exec_lhu, effectiveAddress_of_sameRegs ht haddr]
  case word =>
    have hexec : exec (.sw rs rt imm) s = s.store (s.effectiveAddress rs imm) 4 (s.x rt) := rfl
    refine load_after_store hwf hexec (by decide) hlegal (ext := fun v => v) fun t ht => ?_
    rw [exec_lw, effectiveAddress_of_sameRegs ht haddr]

end Sys2Proof.Machine
end

section
/-! The invariant of the architectural state (rules R26, R160): every effect keeps the form of the data memory, hands
control to the old `npc`, and leaves an `npc` that is a multiple of 4. -/

namespace Sys2Proof.Machine

/-! ### Addresses of instructions -/

theorem aligned_add_four {a : Word} (h : a.toNat % 4 = 0) : (a + 4#32).toNat % 4 = 0 := by
  rw [BitVec.toNat_add, BitVec.toNat_ofNat]
  omega

theorem State.branchTarget_aligned {s : State} (h : s.npc.toNat % 4 = 0) (imm : Imm16) :
    (s.branchTarget imm).toNat % 4 = 0 := by
  rw [State.branchTarget_eq_ofInt, BitVec.toNat_ofInt]
  omega

theorem State.jumpTarget_aligned (s : State) (index : Index26) : (s.jumpTarget index).toNat % 4 = 0 := by
  rw [State.jumpTarget_eq_ofNat, BitVec.toNat_ofNat]
  omega

theorem State.branchNext_aligned {s : State} (h : s.npc.toNat % 4 = 0) (c : Bool) (imm : Imm16) :
    (s.branchNext c imm).toNat % 4 = 0 := by
  cases c with
  | false => exact aligned_add_four h
  | true => exact State.branchTarget_aligned h imm

/-- Every target that does not come from a register is a multiple of 4. -/
theorem effect_target_aligned {s : State} (h : s.npc.toNat % 4 = 0) {i : Instr} {target : Word} {link : Option Reg}
    (he : effect s i = .transfer target link false) : target.toNat % 4 = 0 := by
  cases i with
  | bltz | bgez | beq | bne | blez | bgtz => cases he; exact State.branchNext_aligned h ..
  | j | jal => cases he; exact State.jumpTarget_aligned ..
  | _ => cases he

/-- Where an effect completes, its `npc` is a multiple of 4. -/
theorem effect_npc_aligned {s : State} (h : s.npc.toNat % 4 = 0) {i : Instr} (hstop : (effect s i).stop s = none) :
    ((effect s i).after s).npc.toNat % 4 = 0 := by
  cases he : effect s i with
  | transfer target link checked =>
    cases checked with
    | false => exact effect_target_aligned h he
    | true =>
      have hslot : s.delaySlot = false := by
        by_contra hslot
        rw [he, Effect.stop, if_pos (by simpa using hslot)] at hstop
        cases hstop
      rw [he, Effect.stop_checked hslot] at hstop
      refine (instrAligned_iff target).mp (by_contra fun halign => ?_)
      simp [halign] at hstop
  | _ => exact aligned_add_four h

/-! ### The data memory -/

theorem Effect.after_ram_wf {s : State} (h : s.ram.wf = true) (e : Effect) : (e.after s).ram.wf = true := by
  cases e with
  | store a n v => exact State.memWrite_wf h a n v
  | _ => rwa [Effect.after_ram s rfl]

/-- A store that completes lists bytes inside the data window only. -/
theorem Effect.after_ram_inside {s : State}
    (h : ∀ c ∈ s.ram, s.params.dmBase ≤ c.1 ∧ c.1 < s.params.dmBase + s.params.dmSize)
    {e : Effect} (hstop : e.stop s = none) :
    ∀ c ∈ (e.after s).ram, s.params.dmBase ≤ c.1 ∧ c.1 < s.params.dmBase + s.params.dmSize := by
  cases e with
  | store a n v =>
    intro c hc
    have hlegal : dataFault s.params a n = none := by simpa [Effect.stop] using hstop
    have hin := (Params.dataInside_iff ..).mp ((dataFault_none ..).mp hlegal).2
    rcases mem_ramPutBytes hc with hnew | hold
    · rw [valueBytes_length] at hnew
      omega
    · exact h c hold
  | _ => rwa [Effect.after_ram s rfl]

/-! ### The invariant -/

theorem State.reset_inv : State.reset.Inv :=
  ⟨rfl, by simp [State.reset], rfl, rfl, rfl, fun _ => rfl⟩

/-- Settles O45: nothing is listed at reset, and the two addresses are fixed. -/
theorem resetHasInvariant : Obligations.ResetHasInvariant := by
  unfold Obligations.ResetHasInvariant
  exact State.reset_inv

theorem State.Inv.effect_after {s : State} (h : s.Inv) {i : Instr} (hstop : (effect s i).stop s = none) :
    ((effect s i).after s).Inv := by
  obtain ⟨hrom, hparams, -⟩ := Effect.sameFixed_after s (effect s i)
  refine ⟨Effect.after_ram_wf h.ramCanonical _, ?_, ?_, ?_, effect_npc_aligned h.npcAligned hstop, ?_⟩
  · rw [hparams]
    exact Effect.after_ram_inside h.ramInside hstop
  · rw [hrom]
    exact h.romRising
  · rw [Effect.after_pc]
    exact h.npcAligned
  · rw [Effect.after_delaySlot, Effect.after_pc]
    exact Effect.after_npc s

theorem State.Inv.advance {s : State} (h : s.Inv) : s.advance.Inv :=
  ⟨h.ramCanonical, h.ramInside, h.romRising, h.npcAligned, aligned_add_four h.npcAligned, fun _ => rfl⟩

theorem State.Inv.applyReset {s : State} (h : s.Inv) : s.applyReset.Inv :=
  ⟨h.ramCanonical, h.ramInside, h.romRising, State.reset_inv.pcAligned, State.reset_inv.npcAligned, fun _ => rfl⟩

/-- Settles O44: a step is the reset edge, an instruction's effect that completes, or the sequential update alone. -/
theorem stepKeepsInvariant : Obligations.StepKeepsInvariant := by
  unfold Obligations.StepKeepsInvariant
  intro s t h hstep
  obtain ⟨-, rfl⟩ | ⟨-, w, -, ⟨i, -, hexec⟩ | ⟨e, -, -, rfl⟩⟩ := step_next.mp hstep
  · exact h.applyReset
  · obtain ⟨hstop, rfl⟩ := exec_next.mp hexec
    exact h.effect_after hstop
  · exact h.advance

/-! ### The effective address at the two levels (rule R190) -/

theorem State.effectiveAddress_eq_ofInt (s : State) (rs : Reg) (imm : Imm16) :
    s.effectiveAddress rs imm = BitVec.ofInt 32 ((s.x rs).toNat + imm.toInt) := by
  rw [State.effectiveAddress, BitVec.ofInt_add, BitVec.ofInt_natCast, BitVec.ofNat_toNat, BitVec.setWidth_eq]
  rfl

/-- The controls of the ALU's second operand and operation in every load and store. -/
theorem instrControls_access (op fn : BitVec 6) (rt : Reg) {i : Instr}
    (h : instrClass i = some .load ∨ instrClass i = some .store) :
    (instrControls op fn rt i).opSel = 0b00#2 ∧ (instrControls op fn rt i).funcSel = 0b00#2 ∧
      (instrControls op fn rt i).extSel = 0b00#2 ∧ (instrControls op fn rt i).aluBSel = true := by
  cases i with
  | lb | lh | lw | lbu | lhu | sb | sh | sw => exact ⟨rfl, rfl, rfl, rfl⟩
  | _ => simp [instrClass] at h

/-- Settles O37: under these controls the ALU adds the base and the sign-extended offset. -/
theorem effectiveAddress : Obligations.EffectiveAddress := by
  unfold Obligations.EffectiveAddress
  refine ⟨State.effectiveAddress_eq_ofInt, fun s w i hdec hclass => ?_⟩
  obtain ⟨hop, hfunc, hext, hb⟩ := instrControls_access (fOpcode w) (fFunct w) (fRt w) hclass
  rw [ctrlDecoder_of_instr hdec]
  exact ⟨hop, hfunc, hext, hb, rfl⟩

end Sys2Proof.Machine
end

section
/-! Stalls and forwarding (rules R273 to R282): what the table's entry for a register field means is said for the entry
alone, over the three producers, and then read for `rs` and for `rt`. -/

namespace Sys2Proof.Machine

/-! ### When an entry stalls (rules R271, R274, R275) -/

theorem tableEntry_isStall_E (tuse wd : BitVec 2) :
    (tableEntry tuse .E wd).isStall = true ↔ tuse.toNat < if wd = 0b00#2 then 1 else if wd = 0b01#2 then 2 else 0 := by
  revert tuse wd
  decide

theorem tableEntry_isStall_M (tuse wd : BitVec 2) :
    (tableEntry tuse .M wd).isStall = true ↔ tuse.toNat < if wd = 0b01#2 then 1 else 0 := by
  revert tuse wd
  decide

theorem tableEntry_isStall_W (tuse wd : BitVec 2) : (tableEntry tuse .W wd).isStall = false := by
  revert tuse wd
  decide

/-- A field stalls exactly when its youngest producer is too late for it; a producer in W never is. -/
theorem fieldEntry_isStall (tuse : BitVec 2) (field : Reg) (e m w : Producer) :
    (fieldEntry tuse field e m w).isStall = true ↔
      (e.matched field = true ∧
          tuse.toNat < if e.wdSel = 0b00#2 then 1 else if e.wdSel = 0b01#2 then 2 else 0) ∨
        (e.matched field = false ∧ m.matched field = true ∧ tuse.toNat < if m.wdSel = 0b01#2 then 1 else 0) := by
  unfold fieldEntry
  cases e.matched field
  · cases m.matched field
    · cases w.matched field
      · simp [Entry.isStall]
      · simp [tableEntry_isStall_W]
    · simp [tableEntry_isStall_M]
  · simp [tableEntry_isStall_E]

/-- Settles O52: the stall signal is the two fields' entries and SMULTDIV. -/
theorem stallExactlyWhenTooEarly : Obligations.StallExactlyWhenTooEarly := by
  unfold Obligations.StallExactlyWhenTooEarly
  intro p
  rw [PipeState.stall, ctrlStall, Bool.or_eq_true, Bool.or_eq_true, Bool.and_eq_true, Bool.or_eq_true,
    PipeState.entryRs, PipeState.entryRt, fieldEntry_isStall, fieldEntry_isStall, or_assoc]
  exact Iff.rfl

/-! ### What a stall does (rules R281, R306) -/

theorem cycle_of_reset {p : PipeState} (h : p.resetPin = true) : cycle p = .next p.applyReset := by
  simp [cycle, h]

theorem cycle_of_pipeStop_none {p : PipeState} (hreset : p.resetPin = false) (h : p.pipeStop = none) :
    cycle p = .next p.edge := by
  simp [cycle, hreset, h]

/-- Settles O53: where nothing stops the cycle is the edge, held by a stall. -/
theorem stallHoldsAndClears : Obligations.StallHoldsAndClears := by
  unfold Obligations.StallHoldsAndClears
  intro p
  refine ⟨fun h => ⟨_, cycle_of_reset h, rfl⟩, fun hreset h => ⟨_, cycle_of_pipeStop_none hreset h, ?stall, ?go, rfl, rfl⟩⟩
  case stall =>
    intro hs
    rw [PipeState.edge, hs]
    exact ⟨rfl, rfl, rfl, rfl, rfl, rfl⟩
  case go =>
    intro hs
    rw [PipeState.edge, hs]
    exact ⟨rfl, rfl, rfl⟩

/-! ### What an entry forwards (rules R276 to R278) -/

/-- A two-bit selector has four values. -/
theorem sel_cases (b : BitVec 2) : b = 0b00#2 ∨ b = 0b01#2 ∨ b = 0b10#2 ∨ b = 0b11#2 := by
  revert b
  decide

/-- What the three multiplexers give one after the other, in D, a cycle later in E and two cycles later in M, for one
field's entry: `g` is the GRF's read port, the other words are the producers' fields. -/
def Entry.forward (e : Entry) (g opM dmQM ext32M pc8M opE dmQE ext32E pc8E : Word) : Word :=
  if e.selDM then dmQE else fmuxE e.selE (fmuxD e.selD g opM ext32M pc8M ext32E pc8E) dmQM opE

/-- A read that does not stall is given the result of a producer in E. -/
theorem forward_tableEntry_E {tuse wd : BitVec 2} (hread : tuse ≠ 3#2) (hs : (tableEntry tuse .E wd).isStall = false)
    (g opM dmQM ext32M pc8M opE dmQE ext32E pc8E : Word) :
    (tableEntry tuse .E wd).forward g opM dmQM ext32M pc8M opE dmQE ext32E pc8E = muxWD wd opE dmQE ext32E pc8E := by
  rcases sel_cases tuse with rfl | rfl | rfl | rfl
  case inr.inr.inr => exact absurd rfl hread
  all_goals rcases sel_cases wd with rfl | rfl | rfl | rfl <;> first | rfl | cases hs

theorem forward_tableEntry_M {tuse wd : BitVec 2} (hread : tuse ≠ 3#2) (hs : (tableEntry tuse .M wd).isStall = false)
    (g opM dmQM ext32M pc8M opE dmQE ext32E pc8E : Word) :
    (tableEntry tuse .M wd).forward g opM dmQM ext32M pc8M opE dmQE ext32E pc8E = muxWD wd opM dmQM ext32M pc8M := by
  rcases sel_cases tuse with rfl | rfl | rfl | rfl
  case inr.inr.inr => exact absurd rfl hread
  all_goals rcases sel_cases wd with rfl | rfl | rfl | rfl <;> first | rfl | cases hs

/-- A producer in W is the read port's own business (rule R282). -/
theorem forward_tableEntry_W (tuse wd : BitVec 2) (g opM dmQM ext32M pc8M opE dmQE ext32E pc8E : Word) :
    (tableEntry tuse .W wd).forward g opM dmQM ext32M pc8M opE dmQE ext32E pc8E = g := by
  rcases sel_cases tuse with rfl | rfl | rfl | rfl <;> rfl

/-- A read that does not stall is given the result of the youngest producer in E or M, else what the GRF gives. -/
theorem forward_fieldEntry {tuse : BitVec 2} {field : Reg} {e m w : Producer} (hread : tuse ≠ 3#2)
    (hs : (fieldEntry tuse field e m w).isStall = false) (g opM dmQM ext32M pc8M opE dmQE ext32E pc8E : Word) :
    (fieldEntry tuse field e m w).forward g opM dmQM ext32M pc8M opE dmQE ext32E pc8E =
      if e.matched field then muxWD e.wdSel opE dmQE ext32E pc8E
      else if m.matched field then muxWD m.wdSel opM dmQM ext32M pc8M else g := by
  unfold fieldEntry at hs ⊢
  split
  · next he => exact forward_tableEntry_E hread (by simpa [he] using hs) ..
  · next he =>
    split
    · next hm => exact forward_tableEntry_M hread (by simpa [he, hm] using hs) ..
    · split
      · exact forward_tableEntry_W ..
      · rfl

theorem tableEntry_selDM (tuse : BitVec 2) (stage : Stage) (wd : BitVec 2) (h : tuse ≠ 2#2) :
    (tableEntry tuse stage wd).selDM = false := by
  revert tuse wd
  cases stage <;> decide

/-- Only the store data of `Tuse` 2 waits for M. -/
theorem fieldEntry_selDM {tuse : BitVec 2} (h : tuse ≠ 2#2) (field : Reg) (e m w : Producer) :
    (fieldEntry tuse field e m w).selDM = false := by
  unfold fieldEntry
  repeat' split
  · exact tableEntry_selDM _ _ _ h
  · exact tableEntry_selDM _ _ _ h
  · exact tableEntry_selDM _ _ _ h
  · rfl

theorem tableEntry_selE (stage : Stage) (wd : BitVec 2) : (tableEntry 0#2 stage wd).selE = 0#2 := by
  revert wd
  cases stage <;> decide

/-- An operand of `Tuse` 0 does not wait for E. -/
theorem fieldEntry_selE {tuse : BitVec 2} (h : tuse = 0#2) (field : Reg) (e m w : Producer) :
    (fieldEntry tuse field e m w).selE = 0#2 := by
  subst h
  unfold fieldEntry
  repeat' split
  · exact tableEntry_selE ..
  · exact tableEntry_selE ..
  · exact tableEntry_selE ..
  · rfl

/-! ### The register file's read port (rules R278, R282) -/

/-- The read port with internal forwarding reads the register file after W's write. -/
theorem grfRead_eq (g : Regs) (a : Reg) (we : Bool) (a3 : Reg) (d : Word) :
    grfRead g a we a3 d = readReg (if we then writeReg g a3 d else g) a := by
  cases we with
  | false => simp [grfRead]
  | true => simp [grfRead, readReg_writeReg, and_comm]

theorem PipeState.grfRead_grfNext (p : PipeState) (r : Reg) :
    grfRead p.gpr r p.frW.grfWE p.frW.a3 p.wdW = readReg p.grfNext r := grfRead_eq ..

/-! ### Delivery -/

/-- What the multiplexers deliver for an entry of the pipeline state, one after the other. -/
def PipeState.forwarded (p : PipeState) (e : Entry) (r : Reg) : Word :=
  e.forward (grfRead p.gpr r p.frW.grfWE p.frW.a3 p.wdW) p.frM.op p.dmQ p.frM.ext32 p.frM.pc8 p.opE p.edge.dmQ
    p.frE.ext32 p.frE.pc8

theorem PipeState.forwarded_eq_latest (p : PipeState) {tuse : BitVec 2} {r : Reg} (hread : tuse ≠ 3#2)
    (hs : (fieldEntry tuse r p.prodE p.prodM p.prodW).isStall = false) :
    p.forwarded (fieldEntry tuse r p.prodE p.prodM p.prodW) r = p.latest r := by
  rw [PipeState.forwarded, forward_fieldEntry hread hs, PipeState.latest, ← PipeState.grfRead_grfNext]
  rfl

theorem PipeState.stall_false {p : PipeState} (h : p.stall = false) :
    p.entryRs.isStall = false ∧ p.entryRt.isStall = false ∧ (p.ctrlD.isMultDiv && (p.start || p.busy)) = false := by
  simpa [PipeState.stall, ctrlStall, and_assoc] using h

/-- Settles O54: the multiplexer of the stage of use passes on what the earlier ones gave, so it gives the whole
forwarded value, which is the latest. -/
theorem forwardingDeliversLatest : Obligations.ForwardingDeliversLatest := by
  unfold Obligations.ForwardingDeliversLatest
  intro p h
  obtain ⟨hrs, hrt, -⟩ := PipeState.stall_false h
  have hedge : p.edge = p.advance false := by rw [PipeState.edge, h]
  have hv1E : p.edge.v1E = fmuxE p.entryRs.selE p.v1D p.dmQ p.opE := by rw [hedge]; rfl
  have hv2E : p.edge.v2E = fmuxE p.entryRt.selE p.v2D p.dmQ p.opE := by rw [hedge]; rfl
  have hdmD : p.edge.edge.dmD = if p.entryRt.selDM then p.edge.dmQ else p.edge.v2E := by rw [hedge]; rfl
  refine ⟨fun hu => ?rsD, fun hu => ?rsE, fun hu => ?rtD, fun hu => ?rtE, fun hu => ?rtM⟩
  case rsD =>
    rw [← p.forwarded_eq_latest (by rw [hu]; decide) hrs, PipeState.forwarded, Entry.forward,
      fieldEntry_selDM (by rw [hu]; decide), fieldEntry_selE hu]
    rfl
  case rsE =>
    rw [← p.forwarded_eq_latest (by rw [hu]; decide) hrs, PipeState.forwarded, Entry.forward,
      fieldEntry_selDM (by rw [hu]; decide), hv1E]
    rfl
  case rtD =>
    rw [← p.forwarded_eq_latest (by rw [hu]; decide) hrt, PipeState.forwarded, Entry.forward,
      fieldEntry_selDM (by rw [hu]; decide), fieldEntry_selE hu]
    rfl
  case rtE =>
    rw [← p.forwarded_eq_latest (by rw [hu]; decide) hrt, PipeState.forwarded, Entry.forward,
      fieldEntry_selDM (by rw [hu]; decide), hv2E]
    rfl
  case rtM =>
    rw [← p.forwarded_eq_latest (by rw [hu]; decide) hrt, hdmD, hv2E]
    rfl

/-! ### What a stalled field meets next (rule R279) -/

/-- With a hold the producers of E and M move on and none enters E. -/
theorem fieldEntry_next (tuse : BitVec 2) (field : Reg) {b e m w : Producer} (hb : b.matched field = false) :
    (fieldEntry tuse field e m w = .S1 → fieldEntry tuse field b e m = .F21) ∧
      (fieldEntry tuse field e m w = .S2 → fieldEntry tuse field b e m = .S3) ∧
        (fieldEntry tuse field e m w = .S3 → fieldEntry tuse field b e m = .F1) ∧
          (fieldEntry tuse field e m w = .S4 → fieldEntry tuse field b e m = .F32) := by
  unfold fieldEntry
  rw [hb]
  simp only [Bool.false_eq_true, if_false]
  generalize e.wdSel = wdE, m.wdSel = wdM, w.wdSel = wdW
  cases e.matched field <;> cases m.matched field <;> cases w.matched field <;>
    (revert tuse wdE wdM wdW; decide)

/-- Where nothing stops in M and the field's entry stalls, the cycle that goes on holds D. -/
theorem PipeState.cycle_of_stall {p q : PipeState} (hreset : p.resetPin = false) (hM : p.stopM = none)
    (hs : p.stall = true) (h : cycle p = .next q) : q = p.advance true := by
  obtain ⟨hr, -⟩ | ⟨-, -, rfl⟩ | ⟨-, -, -, rfl⟩ := cycle_next h
  · rw [hreset] at hr
    cases hr
  · rw [PipeState.edge, hs]
  · exact PipeState.drain_of_stopM_none hM

theorem PipeState.stall_of_entry {p : PipeState} (h : p.entryRs.isStall = true ∨ p.entryRt.isStall = true) :
    p.stall = true := by
  rcases h with h | h <;> simp [PipeState.stall, ctrlStall, h]

/-- The bubble of a hold is no producer. -/
theorem PipeState.prodE_advance_true (p : PipeState) (r : Reg) : (p.advance true).prodE.matched r = false := by
  simp [PipeState.prodE, Producer.matched, FRE.zero]

/-- Settles O55: an entry S holds D, and the producers move on by one stage. -/
theorem stallChangeTable : Obligations.StallChangeTable := by
  unfold Obligations.StallChangeTable
  intro p q hreset hM h
  have hq : p.entryRs.isStall = true ∨ p.entryRt.isStall = true → q = p.advance true :=
    fun he => PipeState.cycle_of_stall hreset hM (PipeState.stall_of_entry he) h
  obtain ⟨rs1, rs2, rs3, rs4⟩ := fieldEntry_next p.ctrlD.tuseRs (fRs p.wordD) (e := p.prodE) (m := p.prodM)
    (w := p.prodW) (p.prodE_advance_true _)
  obtain ⟨rt1, rt2, rt3, rt4⟩ := fieldEntry_next p.ctrlD.tuseRt (fRt p.wordD) (e := p.prodE) (m := p.prodM)
    (w := p.prodW) (p.prodE_advance_true _)
  refine ⟨fun he => ?_, fun he => ?_, fun he => ?_, fun he => ?_, fun he => ?_, fun he => ?_, fun he => ?_, fun he => ?_⟩
  · rw [hq (.inl (by rw [he]; rfl))]; exact rs1 he
  · rw [hq (.inl (by rw [he]; rfl))]; exact rs2 he
  · rw [hq (.inl (by rw [he]; rfl))]; exact rs3 he
  · rw [hq (.inl (by rw [he]; rfl))]; exact rs4 he
  · rw [hq (.inr (by rw [he]; rfl))]; exact rt1 he
  · rw [hq (.inr (by rw [he]; rfl))]; exact rt2 he
  · rw [hq (.inr (by rw [he]; rfl))]; exact rt3 he
  · rw [hq (.inr (by rw [he]; rfl))]; exact rt4 he

end Sys2Proof.Machine
end

section
/-! The multiply/divide unit (rules R130, R280, R290, R291): an operation under way counts down to its end, and meanwhile
no instruction of the unit enters E. -/

namespace Sys2Proof.Machine

/-! ### MULT at an edge -/

/-- Nothing starts where E holds no instruction of the unit. -/
theorem PipeState.start_of_not_isMultDiv {p : PipeState} (h : p.frE.isMultDiv = false) : p.start = false := by
  simp [PipeState.start, multStart, h]

theorem PipeState.busy_iff (p : PipeState) : p.busy = true ↔ 0 < p.mult.count := by
  simp [PipeState.busy]

theorem PipeState.multNext_of_start {p : PipeState} (h : p.start = true) :
    p.multNext = { p.mult with count := multLatency p.frE.multSel,
                               nextHi := (multCompute p.frE.multSel p.v1E p.v2E).1,
                               nextLo := (multCompute p.frE.multSel p.v1E p.v2E).2 } := if_pos h

theorem PipeState.multNext_of_busy {p : PipeState} (hs : p.start = false) (h : p.busy = true) :
    p.multNext = p.mult.tick := by
  simp [PipeState.multNext, hs, h]

/-- Without a start the count only goes down. -/
theorem PipeState.multNext_count {p : PipeState} (hs : p.start = false) : p.multNext.count = p.mult.count - 1 := by
  cases hb : p.busy with
  | true => rw [PipeState.multNext_of_busy hs hb, MultUnit.tick_count]
  | false =>
    have hzero : p.mult.count = 0 := by simpa [PipeState.busy] using hb
    simp only [PipeState.multNext, hs, hb, Bool.false_eq_true, if_false]
    split
    · simp [hzero]
    · split <;> simp [hzero]

/-! ### The interlock (rules R130, R280) -/

/-- A hold puts a bubble into E. -/
theorem PipeState.advance_true_interlocked (p : PipeState) : (p.advance true).Interlocked := fun _ => rfl

/-- An instruction of the unit leaves D only where no operation is under way or starting. -/
theorem PipeState.edge_interlocked (p : PipeState) : p.edge.Interlocked := by
  rw [PipeState.edge]
  cases hs : p.stall with
  | true => exact p.advance_true_interlocked
  | false =>
    obtain ⟨-, -, hunit⟩ := PipeState.stall_false hs
    intro hbusy
    by_contra hmd
    have hmd : p.ctrlD.isMultDiv = true := by simpa [PipeState.freFromD] using hmd
    obtain ⟨hstart, hidle⟩ : p.start = false ∧ p.busy = false := by simpa [hmd] using hunit
    have hcount : 0 < p.multNext.count := (PipeState.busy_iff _).mp hbusy
    have hzero : p.mult.count = 0 := by simpa [PipeState.busy] using hidle
    rw [PipeState.multNext_count hstart, hzero] at hcount
    exact absurd hcount (by decide)

/-- With a stop in M the unit only counts down and E is held. -/
theorem PipeState.drain_interlocked {p : PipeState} (h : p.stopM = none ∨ p.Interlocked) : p.drain.Interlocked := by
  cases hM : p.stopM with
  | none =>
    rw [PipeState.drain_of_stopM_none hM]
    exact p.advance_true_interlocked
  | some f =>
    have hp : p.Interlocked := h.resolve_left (by simp [hM])
    rw [PipeState.drain_of_stopM hM]
    intro hbusy
    have hcount : 0 < p.mult.tick.count := (PipeState.busy_iff _).mp hbusy
    rw [MultUnit.tick_count] at hcount
    exact hp ((PipeState.busy_iff p).mpr (by omega))

theorem cycle_interlocked {p q : PipeState} (h : p.stopM = none ∨ p.Interlocked) (hc : cycle p = .next q) :
    q.Interlocked := by
  obtain ⟨-, rfl⟩ | ⟨-, -, rfl⟩ | ⟨-, -, -, rfl⟩ := cycle_next hc
  · exact fun _ => rfl
  · exact p.edge_interlocked
  · exact PipeState.drain_interlocked h

/-- Settles O56: by what a cycle that goes on can be. -/
theorem unitInterlockInvariant : Obligations.UnitInterlockInvariant := by
  unfold Obligations.UnitInterlockInvariant
  exact ⟨fun _ => rfl, fun _ _ => cycle_interlocked⟩

/-! ### The latency (rules R290, R291, D24) -/

/-- Where nothing stops in M, MULT takes its edge in every cycle, held or not. -/
theorem cycle_mult {p q : PipeState} (hreset : p.resetPin = false) (hM : p.stopM = none) (h : cycle p = .next q) :
    q.mult = p.multNext := by
  obtain ⟨hr, -⟩ | ⟨-, -, rfl⟩ | ⟨-, -, -, rfl⟩ := cycle_next h
  · rw [hreset] at hr
    cases hr
  · rfl
  · rw [PipeState.drain_of_stopM_none hM, PipeState.advance_mult]

/-- An operation under way goes on for its count, and then leaves its result. -/
theorem runsTo_under_way {p q : PipeState} {k : Nat} (hreset : p.resetPin = false) (hp : p.Interlocked)
    (hrun : p.runsTo k q) :
    (k < p.mult.count → q.busy = true ∧ q.mult.hi = p.mult.hi ∧ q.mult.lo = p.mult.lo) ∧
      (k = p.mult.count → 0 < k → q.busy = false ∧ q.mult.hi = p.mult.nextHi ∧ q.mult.lo = p.mult.nextLo) := by
  induction k generalizing p with
  | zero =>
    obtain rfl := hrun
    exact ⟨fun h => ⟨(PipeState.busy_iff _).mpr h, rfl, rfl⟩, fun _ h => absurd h (by decide)⟩
  | succ k ih =>
    obtain ⟨p', hM, hc, hrun⟩ := hrun
    have hreset' : p'.resetPin = false := (cycle_fixed hc).2.2.trans hreset
    have hp' : p'.Interlocked := cycle_interlocked (.inl hM) hc
    have htick : 0 < p.mult.count → p'.mult = p.mult.tick := fun hpos => by
      have hbusy := (PipeState.busy_iff p).mpr hpos
      rw [cycle_mult hreset hM hc, PipeState.multNext_of_busy (PipeState.start_of_not_isMultDiv (hp hbusy)) hbusy]
    obtain ⟨hgo, hend⟩ := ih hreset' hp' hrun
    refine ⟨fun hk => ?busy, fun hk _ => ?done⟩
    case busy =>
      obtain ⟨n, hn⟩ : ∃ n, p.mult.count = n + 2 := ⟨p.mult.count - 2, by omega⟩
      have hm := htick (by omega)
      rw [MultUnit.tick_busy hn] at hm
      rw [hm] at hgo
      exact hgo (by simp only; omega)
    case done =>
      have hm := htick (by omega)
      cases k with
      | zero =>
        rw [MultUnit.tick_last hk.symm] at hm
        obtain rfl := hrun
        simp [PipeState.busy, hm]
      | succ k =>
        rw [MultUnit.tick_busy hk.symm] at hm
        rw [hm] at hend
        exact hend rfl (Nat.succ_pos k)

/-- The busy time of a started operation, by its selector (rule R7). -/
theorem multLatency_of_start {isMultDiv : Bool} {sel : BitVec 3} (h : multStart isMultDiv sel = true) :
    multLatency sel = if sel = 0b100#3 ∨ sel = 0b101#3 then 5 else 10 := by
  obtain ⟨-, hsel⟩ : isMultDiv = true ∧ sel.getLsbD 2 = true := by simpa [multStart] using h
  clear h
  revert sel
  decide

/-- Settles O57: the start sets the count to the latency, and the operation is then under way. -/
theorem multiplyDivideLatency : Obligations.MultiplyDivideLatency := by
  unfold Obligations.MultiplyDivideLatency
  intro p q k L hreset hstart hL hrun
  rw [← multLatency_of_start hstart] at hL
  cases k with
  | zero => exact ⟨fun h => absurd h (by decide), fun h => absurd h (by omega)⟩
  | succ k =>
    obtain ⟨p', hM, hc, hrun⟩ := hrun
    have hm := cycle_mult hreset hM hc
    rw [PipeState.multNext_of_start hstart, ← hL] at hm
    obtain ⟨hgo, hend⟩ := runsTo_under_way ((cycle_fixed hc).2.2.trans hreset)
      (cycle_interlocked (.inl hM) hc) hrun
    rw [hm] at hgo hend
    refine ⟨fun _ hk => hgo hk, fun hk => ?_⟩
    obtain ⟨hbusy, hhi, hlo⟩ := hend (by simp only; omega) (by
      have hpos : 0 < multLatency p.frE.multSel := by rw [multLatency]; split <;> decide
      omega)
    exact ⟨hbusy, Prod.ext hhi hlo⟩

end Sys2Proof.Machine
end

section
/-! The two levels agree on what an instruction does (rules R107, R124, R139, R168, R180, R305, R307, R312 to R314).
`ctrlEffect` is the effect that the datapath's modules give a word under its controls; `effect_eq_ctrlEffect` says that it
is the effect of the instruction the word decodes to. -/

namespace Sys2Proof.Machine

/-- The control decoder's outputs for a word. -/
def ctrlOf (w : Word) : Controls := ctrlDecoder (fOpcode w) (fFunct w) (fRt w)

theorem ctrlOf_of_instr {w : Word} {i : Instr} (h : decodeWord w = .instr i) :
    ctrlOf w = instrControls (fOpcode w) (fFunct w) (fRt w) i := ctrlDecoder_of_instr h

theorem ctrlOf_of_rejected {w : Word} {e : DecodeError} (h : decodeWord w = .rejected e) :
    ctrlOf w = idleControls (fOpcode w) (fFunct w) (fRt w) := ctrlDecoder_of_rejected h

/-! ### What the modules compute for a word -/

/-- What MUX_OP_E gives: `HILO` or the ALU's result (rules R312, R313). -/
def ctrlResult (c : Controls) (w : Word) (s : State) : Word :=
  if c.opESel then hiloModule c.multSel s.hi s.lo
  else aluModule c.opSel c.funcSel c.shiftByReg (s.x (fRs w))
    (if c.aluBSel then extModule c.extSel (fImm w) else s.x (fRt w)) (fShamt w)

/-- What IFU_NPC gives (rule R307). -/
def ctrlNpc (c : Controls) (w : Word) (s : State) : Word :=
  npcModule c.npcSel s.npc (compModule c.compSel (s.x (fRs w)) (s.x (fRt w))) (fImm w) (fIndex w) (s.x (fRs w))

/-- The register that MUX_GRF_A3 selects (rule R309). -/
def ctrlDest (c : Controls) (w : Word) : Reg := muxA3 c.a3Sel (fRd w) (fRt w)

/-- The load that DM makes of `DMSel` (rules R50, R314). -/
def loadEffect (dmSel : BitVec 3) (r : Reg) (a : Word) : Effect :=
  match dmSel with
  | 0b000#3 => .load r a 1 (fun v => v.signExtend 32)
  | 0b100#3 => .load r a 1 (fun v => v.setWidth 32)
  | 0b001#3 => .load r a 2 (fun v => v.signExtend 32)
  | 0b101#3 => .load r a 2 (fun v => v.setWidth 32)
  | _ => .load r a 4 (fun v => v)

/-- The store that DM makes of `DMSel` (rules R49, R314). -/
def storeEffect (dmSel : BitVec 3) (a d : Word) : Effect :=
  .store a (accessBytes dmSel) (d.extractLsb' 0 (8 * accessBytes dmSel))

/-- What MULT makes of `MULTSel` (rules R139, R313). -/
def multEffect (multSel : BitVec 3) (a b : Word) : Effect :=
  match multSel with
  | 0b001#3 => .hiLo a none
  | 0b011#3 => .hiLo none a
  | 0b100#3 => .pair (multResult a b)
  | 0b101#3 => .pair (multuResult a b)
  | 0b110#3 => .pair (divResult a b)
  | 0b111#3 => .pair (divuResult a b)
  | _ => .hiLo none none

/-- The link register of a transfer under these controls. -/
def ctrlLink (c : Controls) (w : Word) : Option Reg := if c.grfWE then some (ctrlDest c w) else none

/-- The effect of a word that is no control transfer. -/
def ctrlSequential (c : Controls) (w : Word) (s : State) : Effect :=
  if c.dmWE then storeEffect c.dmSel (ctrlResult c w s) (s.x (fRt w))
  else if c.grfWE then
    if c.wdSel = 0b01#2 then loadEffect c.dmSel (ctrlDest c w) (ctrlResult c w s)
    else .write (ctrlDest c w) (muxWD c.wdSel (ctrlResult c w s) 0#32 (extModule c.extSel (fImm w)) s.linkValue)
  else if c.isMultDiv then multEffect c.multSel (s.x (fRs w)) (s.x (fRt w))
  else .hiLo none none

/-- The effect that the datapath gives a word under its controls. -/
def ctrlEffect (c : Controls) (w : Word) (s : State) : Effect :=
  match c.npcSel with
  | 0b00#2 => ctrlSequential c w s
  | 0b11#2 => .transfer (ctrlNpc c w s) (ctrlLink c w) true
  | _ => .transfer (ctrlNpc c w s) (ctrlLink c w) false

theorem effect_eq_ctrlEffect_special {w : Word} {i : Instr} (hop : fOpcode w = 0b000000#6)
    (h : decodeSpecial w = .instr i) (s : State) :
    effect s i = ctrlEffect (instrControls (fOpcode w) (fFunct w) (fRt w) i) w s := by
  unfold decodeSpecial at h
  split at h
  case h_27 => cases h
  all_goals
    next hfn =>
      cases h
      rw [hop, hfn]
      rfl

theorem effect_eq_ctrlEffect_regimm {w : Word} {i : Instr} (hop : fOpcode w = 0b000001#6)
    (h : decodeRegimm w = .instr i) (s : State) :
    effect s i = ctrlEffect (instrControls (fOpcode w) (fFunct w) (fRt w) i) w s := by
  unfold decodeRegimm at h
  split at h
  case h_3 => cases h
  all_goals
    next hrt =>
      cases h
      rw [hop, hrt]
      rfl

/-- The instruction that a word decodes to has the effect that the datapath gives the word. -/
theorem effect_eq_ctrlEffect {w : Word} {i : Instr} (h : decodeWord w = .instr i) (s : State) :
    effect s i = ctrlEffect (ctrlOf w) w s := by
  rw [ctrlOf_of_instr h]
  unfold decodeWord at h
  split at h
  case h_1 hop => exact effect_eq_ctrlEffect_special hop h s
  case h_2 hop => exact effect_eq_ctrlEffect_regimm hop h s
  case h_7 hop | h_8 hop =>
    split at h
    · cases h
      rw [hop]
      rfl
    · cases h
  case h_24 hop =>
    cases h
    rw [hop]
    exact congrArg (Effect.store _ 4) BitVec.extractLsb'_eq_self.symm
  case h_25 => cases h
  all_goals
    next hop =>
      cases h
      rw [hop]
      rfl

end Sys2Proof.Machine
end

section
/-! What the control decoder's outputs are good for (rules R271, R305, R315): the controls of every word are consistent
with one another, in the terms in which the datapath and the pipeline use them. -/

namespace Sys2Proof.Machine

/-! ### The fields that a row fixes -/

/-- A field that the row's mask covers has the value of the row's `match`. -/
theorem field_of_instr {w mask bits : Word} {i : Instr} {start len : Nat} {v : BitVec len}
    (h : decodeWord w = .instr i) (hm : i.mask = mask) (hb : i.matchBits = bits)
    (hv : mask.extractLsb' start len = BitVec.allOnes len ∧ bits.extractLsb' start len = v) :
    w.extractLsb' start len = v := by
  subst hm hb
  exact (extract_of_and_mask (beq_iff_eq.mp (rowOf_recognises h)) hv.1).trans hv.2

/-- `DMSel` of a store. -/
theorem dmSel_of_store {w : Word} {i : Instr} (h : decodeWord w = .instr i) (hc : instrClass i = some .store) :
    (fOpcode w).extractLsb' 0 3 = 0b000#3 ∨ (fOpcode w).extractLsb' 0 3 = 0b001#3 ∨
      (fOpcode w).extractLsb' 0 3 = 0b011#3 := by
  cases i with
  | sb rs rt imm =>
    have hop : fOpcode w = 0b101000#6 := field_of_instr (mask := 0xFC000000#32) (bits := 0xA0000000#32) h rfl rfl (by decide)
    exact .inl (by rw [hop]; rfl)
  | sh rs rt imm =>
    have hop : fOpcode w = 0b101001#6 := field_of_instr (mask := 0xFC000000#32) (bits := 0xA4000000#32) h rfl rfl (by decide)
    exact .inr <| .inl (by rw [hop]; rfl)
  | sw rs rt imm =>
    have hop : fOpcode w = 0b101011#6 := field_of_instr (mask := 0xFC000000#32) (bits := 0xAC000000#32) h rfl rfl (by decide)
    exact .inr <| .inr (by rw [hop]; rfl)
  | _ => cases hc

/-- `DMSel` of a load. -/
theorem dmSel_of_load {w : Word} {i : Instr} (h : decodeWord w = .instr i) (hc : instrClass i = some .load) :
    (fOpcode w).extractLsb' 0 3 = 0b000#3 ∨ (fOpcode w).extractLsb' 0 3 = 0b001#3 ∨
      (fOpcode w).extractLsb' 0 3 = 0b011#3 ∨ (fOpcode w).extractLsb' 0 3 = 0b100#3 ∨
        (fOpcode w).extractLsb' 0 3 = 0b101#3 := by
  cases i with
  | lb rs rt imm =>
    have hop : fOpcode w = 0b100000#6 := field_of_instr (mask := 0xFC000000#32) (bits := 0x80000000#32) h rfl rfl (by decide)
    exact .inl (by rw [hop]; rfl)
  | lh rs rt imm =>
    have hop : fOpcode w = 0b100001#6 := field_of_instr (mask := 0xFC000000#32) (bits := 0x84000000#32) h rfl rfl (by decide)
    exact .inr <| .inl (by rw [hop]; rfl)
  | lw rs rt imm =>
    have hop : fOpcode w = 0b100011#6 := field_of_instr (mask := 0xFC000000#32) (bits := 0x8C000000#32) h rfl rfl (by decide)
    exact .inr <| .inr <| .inl (by rw [hop]; rfl)
  | lbu rs rt imm =>
    have hop : fOpcode w = 0b100100#6 := field_of_instr (mask := 0xFC000000#32) (bits := 0x90000000#32) h rfl rfl (by decide)
    exact .inr <| .inr <| .inr <| .inl (by rw [hop]; rfl)
  | lhu rs rt imm =>
    have hop : fOpcode w = 0b100101#6 := field_of_instr (mask := 0xFC000000#32) (bits := 0x94000000#32) h rfl rfl (by decide)
    exact .inr <| .inr <| .inr <| .inr (by rw [hop]; rfl)
  | _ => cases hc

/-- COMP does not look at its second operand where a branch compares with 0. -/
theorem compModule_of_branchz {w : Word} {i : Instr} (h : decodeWord w = .instr i) (hc : instrClass i = some .branchz)
    (a b b' : Word) :
    compModule (compSelOf (fOpcode w) (fFunct w) (fRt w) i) a b =
      compModule (compSelOf (fOpcode w) (fFunct w) (fRt w) i) a b' := by
  cases i with
  | bltz rs imm =>
    have hrt : fRt w = 0#5 := field_of_instr (mask := 0xFC1F0000#32) (bits := 0x04000000#32) h rfl rfl (by decide)
    rw [hrt]
    rfl
  | bgez rs imm =>
    have hrt : fRt w = 1#5 := field_of_instr (mask := 0xFC1F0000#32) (bits := 0x04010000#32) h rfl rfl (by decide)
    rw [hrt]
    rfl
  | blez rs imm =>
    have hop : fOpcode w = 0b000110#6 := field_of_instr (mask := 0xFC1F0000#32) (bits := 0x18000000#32) h rfl rfl (by decide)
    rw [hop]
    rfl
  | bgtz rs imm =>
    have hop : fOpcode w = 0b000111#6 := field_of_instr (mask := 0xFC1F0000#32) (bits := 0x1C000000#32) h rfl rfl (by decide)
    rw [hop]
    rfl
  | _ => cases hc

/-- `MULTSel` of a word with this `funct`. -/
def multSelOf (fn : BitVec 6) : BitVec 3 := fn.extractLsb' 3 1 ++ fn.extractLsb' 0 2

theorem multSel_of_mlfrom {w : Word} {i : Instr} (h : decodeWord w = .instr i) (hc : instrClass i = some .mlfrom) :
    multSelOf (fFunct w) = 0b000#3 ∨ multSelOf (fFunct w) = 0b010#3 := by
  cases i with
  | mfhi rd =>
    have hfn : fFunct w = 0b010000#6 := field_of_instr (mask := 0xFC00003F#32) (bits := 0x00000010#32) h rfl rfl (by decide)
    exact .inl (by rw [hfn]; rfl)
  | mflo rd =>
    have hfn : fFunct w = 0b010010#6 := field_of_instr (mask := 0xFC00003F#32) (bits := 0x00000012#32) h rfl rfl (by decide)
    exact .inr (by rw [hfn]; rfl)
  | _ => cases hc

theorem multSel_of_mlto {w : Word} {i : Instr} (h : decodeWord w = .instr i) (hc : instrClass i = some .mlto) :
    multSelOf (fFunct w) = 0b001#3 ∨ multSelOf (fFunct w) = 0b011#3 := by
  cases i with
  | mthi rs =>
    have hfn : fFunct w = 0b010001#6 := field_of_instr (mask := 0xFC00003F#32) (bits := 0x00000011#32) h rfl rfl (by decide)
    exact .inl (by rw [hfn]; rfl)
  | mtlo rs =>
    have hfn : fFunct w = 0b010011#6 := field_of_instr (mask := 0xFC00003F#32) (bits := 0x00000013#32) h rfl rfl (by decide)
    exact .inr (by rw [hfn]; rfl)
  | _ => cases hc

/-! ### Consistency of the controls -/

/-- The second operand of a branch is either read in D or not looked at by COMP. -/
def CompReadsRt (c : Controls) : Prop :=
  c.tuseRt = 0#2 ∨ ∀ a b b', compModule c.compSel a b = compModule c.compSel a b'

/-- What holds of the controls of every word. -/
structure Controls.Sound (c : Controls) : Prop where
  /-- A store goes on in sequence, moves 1, 2 or 4 bytes, takes its address from rs and the immediate and its data in M. -/
  store : c.dmWE = true → c.npcSel = 0b00#2 ∧ c.grfWE = false ∧ c.isMultDiv = false ∧ c.opESel = false ∧
    c.aluBSel = true ∧ c.tuseRs = 1#2 ∧ c.tuseRt = 2#2 ∧ (c.dmSel = 0b000#3 ∨ c.dmSel = 0b001#3 ∨ c.dmSel = 0b011#3)
  /-- A load moves 1, 2 or 4 bytes. -/
  load : c.grfWE = true → c.wdSel = 0b01#2 → c.npcSel = 0b00#2 ∧ c.isMultDiv = false ∧
    (c.dmSel = 0b000#3 ∨ c.dmSel = 0b001#3 ∨ c.dmSel = 0b011#3 ∨ c.dmSel = 0b100#3 ∨ c.dmSel = 0b101#3)
  /-- What is written back from E or M is `HILO`, for an instruction of the unit, or an ALU result whose operands are
  read in E. -/
  result : c.grfWE = true → c.wdSel = 0b00#2 ∨ c.wdSel = 0b01#2 →
    c.opESel = true ∧ c.isMultDiv = true ∨ c.opESel = false ∧ c.tuseRs = 1#2 ∧ (c.aluBSel = true ∨ c.tuseRt = 1#2)
  /-- A branch compares in D and writes no register. -/
  branch : c.npcSel = 0b01#2 → c.grfWE = false ∧ c.tuseRs = 0#2 ∧ CompReadsRt c
  /-- A register jump reads its target in D. -/
  jump : c.npcSel = 0b11#2 → c.tuseRs = 0#2
  /-- A transfer uses neither memory nor the unit, and writes no register but the link. -/
  transfer : c.npcSel ≠ 0b00#2 → c.dmWE = false ∧ c.isMultDiv = false ∧ (c.grfWE = true → c.wdSel = 0b11#2)
  /-- The unit's instructions that read `HI` or `LO` write neither; the others read their operands in E. -/
  unit : c.isMultDiv = true → c.npcSel = 0b00#2 ∧ c.dmWE = false ∧
    (c.grfWE = true → c.multSel = 0b000#3 ∨ c.multSel = 0b010#3) ∧
    (c.multSel = 0b001#3 ∨ c.multSel = 0b011#3 → c.tuseRs = 1#2) ∧
    (c.multSel.getLsbD 2 = true → c.tuseRs = 1#2 ∧ c.tuseRt = 1#2)

theorem idleControls_sound (op fn : BitVec 6) (rt : Reg) : (idleControls op fn rt).Sound where
  store h := by cases h
  load h := by cases h
  result h := by cases h
  branch h := by cases h
  jump h := by cases h
  transfer h := absurd rfl h
  unit h := by cases h

/-! The classes that a control value singles out. -/

theorem class_of_dmWE {k : Option Cls} (h : dmWEOf k = true) : k = some .store := by
  rcases k with _ | k
  · cases h
  · cases k <;> first | rfl | cases h

theorem class_of_branch {k : Option Cls} (h : npcSelOf k = 0b01#2) : k = some .branche ∨ k = some .branchz := by
  rcases k with _ | k
  · cases h
  · cases k <;> first | exact .inl rfl | exact .inr rfl | cases h

theorem class_of_jumpRegister {k : Option Cls} (h : npcSelOf k = 0b11#2) : k = some .jumpr ∨ k = some .jumprw := by
  rcases k with _ | k
  · cases h
  · cases k <;> first | exact .inl rfl | exact .inr rfl | cases h

theorem class_of_load {k : Option Cls} (h : wdSelOf k = 0b01#2) : k = some .load := by
  rcases k with _ | k
  · cases h
  · cases k <;> first | rfl | cases h

theorem class_of_isMultDiv {k : Option Cls} (h : isMultDivOf k = true) :
    k = some .mlutdiv ∨ k = some .mlto ∨ k = some .mlfrom := by
  rcases k with _ | k
  · cases h
  · cases k <;> first | exact .inl rfl | exact .inr (.inl rfl) | exact .inr (.inr rfl) | cases h

/-- Where the class writes an ALU result or `HILO`, what it reads for it (rule R271). -/
theorem class_result {k : Option Cls} (hwe : grfWEOf k = true) (hwd : wdSelOf k = 0b00#2 ∨ wdSelOf k = 0b01#2) :
    opESelOf k = true ∧ isMultDivOf k = true ∨
      opESelOf k = false ∧ tuseRsOf k = 1#2 ∧ (aluBSelOf k = true ∨ tuseRtOf k = 1#2) := by
  rcases k with _ | k
  · cases hwe
  · cases k <;> simp_all [grfWEOf, wdSelOf, opESelOf, isMultDivOf, tuseRsOf, tuseRtOf, aluBSelOf]

/-- A class that does not go on in sequence. -/
theorem class_transfer {k : Option Cls} (h : npcSelOf k ≠ 0b00#2) :
    dmWEOf k = false ∧ isMultDivOf k = false ∧ (grfWEOf k = true → wdSelOf k = 0b11#2) := by
  rcases k with _ | k
  · simp [dmWEOf, isMultDivOf, grfWEOf]
  · cases k <;> simp_all [npcSelOf, dmWEOf, isMultDivOf, grfWEOf, wdSelOf]

theorem instrControls_sound {w : Word} {i : Instr} (h : decodeWord w = .instr i) :
    (instrControls (fOpcode w) (fFunct w) (fRt w) i).Sound where
  store hwe := by
    have hk : instrClass i = some .store := class_of_dmWE hwe
    simp only [instrControls, hk]
    exact ⟨rfl, rfl, rfl, rfl, rfl, rfl, rfl, dmSel_of_store h hk⟩
  load _ hwd := by
    have hk : instrClass i = some .load := class_of_load hwd
    simp only [instrControls, hk]
    exact ⟨rfl, rfl, dmSel_of_load h hk⟩
  result hwe hwd := class_result hwe hwd
  branch hnpc := by
    rcases class_of_branch hnpc with hk | hk
    · simp only [instrControls, hk]
      exact ⟨rfl, rfl, .inl rfl⟩
    · refine ⟨?_, ?_, .inr (compModule_of_branchz h hk)⟩
      · simp only [instrControls, hk]; rfl
      · simp only [instrControls, hk]; rfl
  jump hnpc := by
    rcases class_of_jumpRegister hnpc with hk | hk
    · simp only [instrControls, hk]; rfl
    · simp only [instrControls, hk]; rfl
  transfer hnpc := class_transfer hnpc
  unit hmd := by
    rcases class_of_isMultDiv hmd with hk | hk | hk
    · simp only [instrControls, hk]
      exact ⟨rfl, rfl, fun hwe => (by cases hwe), fun _ => rfl, fun _ => ⟨rfl, rfl⟩⟩
    · have hsel := multSel_of_mlto h hk
      simp only [instrControls, hk]
      refine ⟨rfl, rfl, fun hwe => (by cases hwe), fun _ => rfl, fun hstart => ?_⟩
      rcases hsel with hsel | hsel
      · rw [← multSelOf, hsel] at hstart; cases hstart
      · rw [← multSelOf, hsel] at hstart; cases hstart
    · have hsel := multSel_of_mlfrom h hk
      simp only [instrControls, hk]
      refine ⟨rfl, rfl, fun _ => hsel, fun hto => ?_, fun hstart => ?_⟩
      · rw [← multSelOf] at hto
        rcases hsel with hsel | hsel <;> (rw [hsel] at hto; simp at hto)
      · rcases hsel with hsel | hsel
        · rw [← multSelOf, hsel] at hstart; cases hstart
        · rw [← multSelOf, hsel] at hstart; cases hstart

theorem ctrlOf_sound (w : Word) : (ctrlOf w).Sound := by
  cases h : decodeWord w with
  | instr i =>
    rw [ctrlOf_of_instr h]
    exact instrControls_sound h
  | rejected e =>
    rw [ctrlOf_of_rejected h]
    exact idleControls_sound ..

end Sys2Proof.Machine
end

section
/-! The two levels agree, module by module: IFU_NPC and COMP on the next address, the ALU and MULT on results, DM and the
RAM's lanes on memory. -/

namespace Sys2Proof.Machine

/-! ### Effects of `DMSel` and `MULTSel` -/

theorem loadEffect_isTransfer (dmSel : BitVec 3) (r : Reg) (a : Word) : (loadEffect dmSel r a).isTransfer = false := by
  unfold loadEffect
  split <;> rfl

theorem multEffect_isTransfer (sel : BitVec 3) (a b : Word) : (multEffect sel a b).isTransfer = false := by
  unfold multEffect
  split <;> rfl

/-- What MULT does, by `Start` and by the two moves (rules R139, R313). -/
theorem multEffect_eq (sel : BitVec 3) (a b : Word) :
    multEffect sel a b =
      if sel.getLsbD 2 then .pair (multCompute sel a b)
      else if sel = 0b001#3 then .hiLo a none else if sel = 0b011#3 then .hiLo none a else .hiLo none none := by
  have hsel : sel = 0#3 ∨ sel = 1#3 ∨ sel = 2#3 ∨ sel = 3#3 ∨ sel = 4#3 ∨ sel = 5#3 ∨ sel = 6#3 ∨ sel = 7#3 := by
    revert sel
    decide
  rcases hsel with rfl | rfl | rfl | rfl | rfl | rfl | rfl | rfl <;> rfl

/-! ### The next address (rules R168, R180, R305, R307) -/

theorem ctrlSequential_isTransfer (c : Controls) (w : Word) (s : State) : (ctrlSequential c w s).isTransfer = false := by
  unfold ctrlSequential
  split
  · rfl
  · split
    · split
      · exact loadEffect_isTransfer ..
      · rfl
    · split
      · exact multEffect_isTransfer ..
      · rfl

theorem ctrlEffect_of_sequential {c : Controls} (h : c.npcSel = 0b00#2) (w : Word) (s : State) :
    ctrlEffect c w s = ctrlSequential c w s := by
  rw [ctrlEffect, h]
  rfl

/-- The `npc` that an effect leaves is what IFU_NPC gives. -/
theorem ctrlEffect_npc (c : Controls) (w : Word) (s : State) :
    ((ctrlEffect c w s).after s).npc = ctrlNpc c w s := by
  unfold ctrlEffect
  split
  · next h =>
    rw [Effect.after_npc s (ctrlSequential_isTransfer c w s), ctrlNpc, h]
    rfl
  · rfl
  · rfl

/-! ### Results -/

/-- The controls of the classes whose result comes from the ALU. -/
theorem instrControls_alu (op fn : BitVec 6) (rt : Reg) {i : Instr}
    (h : instrClass i = some .alreg ∨ instrClass i = some .alimm) :
    (instrControls op fn rt i).npcSel = 0b00#2 ∧ (instrControls op fn rt i).dmWE = false ∧
      (instrControls op fn rt i).grfWE = true ∧ (instrControls op fn rt i).wdSel = 0b00#2 ∧
        (instrControls op fn rt i).opESel = false := by
  rcases h with h | h <;> (simp only [instrControls, h]; exact ⟨rfl, rfl, rfl, rfl, rfl⟩)

theorem instrControls_mult (op fn : BitVec 6) (rt : Reg) {i : Instr} (h : instrClass i = some .mlutdiv) :
    (instrControls op fn rt i).npcSel = 0b00#2 ∧ (instrControls op fn rt i).dmWE = false ∧
      (instrControls op fn rt i).grfWE = false ∧ (instrControls op fn rt i).isMultDiv = true := by
  simp only [instrControls, h]
  exact ⟨rfl, rfl, rfl, rfl⟩

/-- An instruction of the ALU's classes is the write-back of the ALU's result to MUX_GRF_A3's register. -/
theorem ctrlEffect_alu {c : Controls} (hnpc : c.npcSel = 0b00#2) (hdm : c.dmWE = false) (hwe : c.grfWE = true)
    (hwd : c.wdSel = 0b00#2) (w : Word) (s : State) :
    ctrlEffect c w s = .write (ctrlDest c w) (ctrlResult c w s) := by
  have hne : ¬c.wdSel = 0b01#2 := by rw [hwd]; decide
  rw [ctrlEffect_of_sequential hnpc, ctrlSequential, if_neg (by simp [hdm]), if_pos hwe, if_neg hne, hwd]
  rfl

theorem ctrlEffect_mult {c : Controls} (hnpc : c.npcSel = 0b00#2) (hdm : c.dmWE = false) (hwe : c.grfWE = false)
    (hmd : c.isMultDiv = true) (w : Word) (s : State) :
    ctrlEffect c w s = multEffect c.multSel (s.x (fRs w)) (s.x (fRt w)) := by
  rw [ctrlEffect_of_sequential hnpc, ctrlSequential, if_neg (by simp [hdm]), if_neg (by simp [hwe]), if_pos hmd]

/-- Only a started operation writes both `HI` and `LO`. -/
theorem start_of_multEffect {sel : BitVec 3} {a b : Word} (hhi : (multEffect sel a b).writesHi = true)
    (hlo : (multEffect sel a b).writesLo = true) :
    sel.getLsbD 2 = true ∧ multEffect sel a b = .pair (multCompute sel a b) := by
  rw [multEffect_eq] at hhi hlo ⊢
  split
  · next h => exact ⟨h, rfl⟩
  · next h =>
    rw [if_neg h] at hhi hlo
    split at hhi
    · next h1 =>
      rw [if_pos h1] at hlo
      cases hlo
    · split at hhi <;> cases hhi

theorem writes_of_mlutdiv {i : Instr} (h : instrClass i = some .mlutdiv) :
    Instr.writesHi i = true ∧ Instr.writesLo i = true := by
  cases i with
  | mult | multu | div | divu => exact ⟨rfl, rfl⟩
  | _ => cases h

/-- Settles O58: the effect of the instruction is that of its word under the controls, whose fields are the modules'
outputs. -/
theorem datapathComputesResults : Obligations.DatapathComputesResults := by
  unfold Obligations.DatapathComputesResults
  rintro w i s t c hdec hexec rfl
  obtain ⟨-, rfl⟩ := exec_next.mp hexec
  have heff : effect s i = ctrlEffect (ctrlOf w) w s := effect_eq_ctrlEffect hdec s
  refine ⟨?npc, fun hclass => ?alu, fun hclass => ?mult⟩
  case npc =>
    rw [heff]
    exact ctrlEffect_npc ..
  case alu =>
    have hctrl := instrControls_alu (fOpcode w) (fFunct w) (fRt w) hclass
    rw [← ctrlOf_of_instr hdec] at hctrl
    obtain ⟨hnpc, hdm, hwe, hwd, hop⟩ := hctrl
    have hwrite := heff.trans (ctrlEffect_alu hnpc hdm hwe hwd w s)
    rw [← effect_dest s i, hwrite]
    refine ⟨rfl, hwd, fun hne => ?_⟩
    refine ((s.writesReg_writeBack (ctrlDest (ctrlOf w) w) (ctrlResult (ctrlOf w) w s)).1.trans (if_neg hne)).trans ?_
    rw [ctrlResult, if_neg (by simp [hop])]
    rfl
  case mult =>
    have hctrl := instrControls_mult (fOpcode w) (fFunct w) (fRt w) hclass
    rw [← ctrlOf_of_instr hdec] at hctrl
    obtain ⟨hnpc, hdm, hwe, hmd⟩ := hctrl
    have hmult := heff.trans (ctrlEffect_mult hnpc hdm hwe hmd w s)
    obtain ⟨hhi, hlo⟩ := writes_of_mlutdiv hclass
    rw [← effect_writesHi s, hmult] at hhi
    rw [← effect_writesLo s, hmult] at hlo
    obtain ⟨hstart, hpair⟩ := start_of_multEffect hhi hlo
    refine ⟨?_, ?_⟩
    · exact Bool.and_eq_true_iff.mpr ⟨hmd, hstart⟩
    · rw [hmult, hpair]
      rfl

end Sys2Proof.Machine
end

section
/-! DM and the RAM's lanes against the architectural loads and stores (rules R45, R49, R50, R314, D18). -/

namespace Sys2Proof.Machine

/-! ### The lanes of a legal access -/

/-- `DMSel` of a store, or of a load that extends the sign. -/
def PlainSel (dmSel : BitVec 3) : Prop := dmSel = 0b000#3 ∨ dmSel = 0b001#3 ∨ dmSel = 0b011#3

theorem accessBytes_cases (dmSel : BitVec 3) :
    accessBytes dmSel = 1 ∨ accessBytes dmSel = 2 ∨ accessBytes dmSel = 4 := by
  unfold accessBytes
  split
  · exact .inl rfl
  · exact .inr (.inl rfl)
  · exact .inr (.inr rfl)

/-- An aligned access of 1, 2 or 4 bytes stays inside one word. -/
theorem lane_add_le {a n : Nat} (hn : n = 1 ∨ n = 2 ∨ n = 4) (ha : a % n = 0) : a % 4 + n ≤ 4 := by
  rcases hn with rfl | rfl | rfl <;> omega

theorem extract_two (a : Word) : a.extractLsb' 0 2 = BitVec.ofNat 2 (a.toNat % 4) := by
  refine BitVec.eq_of_toNat_eq ?_
  simp

/-- DM's `byteen` table is the shift of rule R49 where the access is aligned. -/
theorem byteenModule_eq_byteen {dmSel : BitVec 3} (hsel : PlainSel dmSel) {a : Word}
    (ha : a.toNat % accessBytes dmSel = 0) : byteenModule true dmSel a = byteen a (accessBytes dmSel) := by
  have hlane : a.toNat % 4 < 4 := Nat.mod_lt _ (by decide)
  have halign : a.toNat % 4 % accessBytes dmSel = 0 := by
    rcases accessBytes_cases dmSel with h | h | h <;> (rw [h] at ha ⊢; omega)
  unfold byteenModule byteen
  rw [extract_two]
  generalize a.toNat % 4 = lane at hlane halign
  have hlanes : lane = 0 ∨ lane = 1 ∨ lane = 2 ∨ lane = 3 := by omega
  rcases hsel with rfl | rfl | rfl
  · rcases hlanes with rfl | rfl | rfl | rfl <;> rfl
  · rcases hlanes with rfl | rfl | rfl | rfl <;> first | rfl | cases halign
  · rcases hlanes with rfl | rfl | rfl | rfl <;> first | rfl | cases halign

/-- A word moved up to a lane: byte `k` stands in lane `lane + k`. -/
theorem shifted_word_lane (d : Word) {lane k : Nat} (hk : lane + k < 4) :
    (d <<< (8 * lane)).extractLsb' (8 * (lane + k)) 8 = d.extractLsb' (8 * k) 8 := by
  refine BitVec.eq_of_getLsbD_eq fun i hi => ?_
  have hpos : 8 * (lane + k) + i - 8 * lane = 8 * k + i := by omega
  have h32 : 8 * (lane + k) + i < 32 := by omega
  have hnot : ¬8 * (lane + k) + i < 8 * lane := by omega
  simp only [BitVec.getLsbD_extractLsb', BitVec.getLsbD_shiftLeft, hi, h32, hnot, hpos, decide_true, decide_false,
    Bool.not_false, Bool.true_and]

/-- DM's `wdata` is a value of the bus of rule R49: it moves the whole word where the bus moves the bytes stored, which
is the same in the enabled lanes. -/
theorem wdataModule_eq_busData {dmSel : BitVec 3} (hsel : PlainSel dmSel) {a : Word}
    (ha : a.toNat % accessBytes dmSel = 0) (d rdata : Word) :
    wdataModule true dmSel a d rdata =
      busData a (accessBytes dmSel) (d.extractLsb' 0 (8 * accessBytes dmSel)) (Config.openWdata dmSel a d rdata) := by
  have hn := accessBytes_cases dmSel
  rw [wdataModule, busData, byteenModule_eq_byteen hsel ha]
  generalize accessBytes dmSel = n at ha hn ⊢
  have hin : a.toNat % 4 + n ≤ 4 := lane_add_le hn ha
  refine congrArg (· ||| _) (eq_of_bytes (n := 4) fun j hj => ?_)
  rw [BitVec.extractLsb'_and, BitVec.extractLsb'_and, laneMask_lane _ hj, getLsbD_byteen hn ha hj]
  by_cases henabled : a.toNat % 4 ≤ j ∧ j < a.toNat % 4 + n
  · obtain ⟨k, rfl⟩ : ∃ k, j = a.toNat % 4 + k := ⟨j - a.toNat % 4, by omega⟩
    rw [shifted_word_lane d (by omega), shifted_lane _ (by omega) hin, low_bytes d (by omega)]
  · rw [decide_eq_false henabled]
    simp

/-! ### The RAM's lane write -/

theorem ramByte_ramPut_if {m : Memory} (hm : m.rising = true) (c : Bool) (a k : Nat) (b : Byte) :
    ramByte (if c then ramPut m a b else m) k = if c = true ∧ k = a then b else ramByte m k := by
  cases c
  · simp
  · simp [ramByte_ramPut hm]

theorem ramPut_if_rising {m : Memory} (hm : m.rising = true) (c : Bool) (a : Nat) (b : Byte) :
    (if c then ramPut m a b else m).rising = true := by
  cases c
  · simpa using hm
  · simpa using ramPut_rising hm a b

/-- Every byte of the RAM after a lane write: lane `j` of the word if it is enabled. -/
theorem ramByte_ramWriteLanes_lane {m : Memory} (hm : m.rising = true) (a : Word) (be : BitVec 4) (wdata : Word)
    {j : Nat} (hj : j < 4) :
    ramByte (ramWriteLanes m a be wdata) (a.toNat - a.toNat % 4 + j) =
      if be.getLsbD j then wdata.extractLsb' (8 * j) 8 else ramByte m (a.toNat - a.toNat % 4 + j) := by
  have r0 := ramPut_if_rising hm (be.getLsbD 0) (a.toNat - a.toNat % 4 + 0) (wdata.extractLsb' (8 * 0) 8)
  have r1 := ramPut_if_rising r0 (be.getLsbD 1) (a.toNat - a.toNat % 4 + 1) (wdata.extractLsb' (8 * 1) 8)
  have r2 := ramPut_if_rising r1 (be.getLsbD 2) (a.toNat - a.toNat % 4 + 2) (wdata.extractLsb' (8 * 2) 8)
  rw [ramWriteLanes, ramByte_ramPut_if r2, ramByte_ramPut_if r1, ramByte_ramPut_if r0, ramByte_ramPut_if hm]
  simp only [Nat.add_left_cancel_iff]
  interval_cases j <;> simp

theorem ramByte_ramWriteLanes_outside {m : Memory} (hm : m.rising = true) (a : Word) (be : BitVec 4) (wdata : Word)
    {b : Nat} (hb : b < a.toNat - a.toNat % 4 ∨ a.toNat - a.toNat % 4 + 4 ≤ b) :
    ramByte (ramWriteLanes m a be wdata) b = ramByte m b := by
  have r0 := ramPut_if_rising hm (be.getLsbD 0) (a.toNat - a.toNat % 4 + 0) (wdata.extractLsb' (8 * 0) 8)
  have r1 := ramPut_if_rising r0 (be.getLsbD 1) (a.toNat - a.toNat % 4 + 1) (wdata.extractLsb' (8 * 1) 8)
  have r2 := ramPut_if_rising r1 (be.getLsbD 2) (a.toNat - a.toNat % 4 + 2) (wdata.extractLsb' (8 * 2) 8)
  have hne (j : Nat) (hj : j < 4) : ¬b = a.toNat - a.toNat % 4 + j := by omega
  rw [ramWriteLanes, ramByte_ramPut_if r2, ramByte_ramPut_if r1, ramByte_ramPut_if r0, ramByte_ramPut_if hm]
  simp only [hne 0 (by decide), hne 1 (by decide), hne 2 (by decide), hne 3 (by decide), and_false, if_false]

/-- No lane is enabled without `WE`. -/
theorem ramByte_ramWriteLanes_zero {m : Memory} (hm : m.rising = true) (a wdata : Word) (b : Nat) :
    ramByte (ramWriteLanes m a 0#4 wdata) b = ramByte m b := by
  by_cases hb : b < a.toNat - a.toNat % 4 ∨ a.toNat - a.toNat % 4 + 4 ≤ b
  · exact ramByte_ramWriteLanes_outside hm a _ wdata hb
  · obtain ⟨j, rfl⟩ : ∃ j, b = a.toNat - a.toNat % 4 + j := ⟨b - (a.toNat - a.toNat % 4), by omega⟩
    rw [ramByte_ramWriteLanes_lane hm a _ wdata (by omega)]
    simp

/-- DM's store and `MemWrite` put the same bytes in a canonical RAM (rules R47, R49). -/
theorem ramByte_storeLanes {s : State} (hs : s.ram.rising = true) {m : Memory} (hm : m.rising = true)
    (hsame : ∀ b, ramByte m b = ramByte s.ram b) {dmSel : BitVec 3} (hsel : PlainSel dmSel)
    {a : Word} (ha : a.toNat % accessBytes dmSel = 0) (d rdata : Word) (b : Nat) :
    ramByte (ramWriteLanes m a (byteenModule true dmSel a) (wdataModule true dmSel a d rdata)) b =
      ramByte (s.memWrite a (accessBytes dmSel) (d.extractLsb' 0 (8 * accessBytes dmSel))).ram b := by
  have hn := accessBytes_cases dmSel
  rw [State.ramByte_memWrite hs, ← hsame, wdataModule_eq_busData hsel ha, byteenModule_eq_byteen hsel ha]
  generalize accessBytes dmSel = n at ha hn ⊢
  have hin : a.toNat % 4 + n ≤ 4 := lane_add_le hn ha
  by_cases hb : b < a.toNat - a.toNat % 4 ∨ a.toNat - a.toNat % 4 + 4 ≤ b
  · rw [ramByte_ramWriteLanes_outside hm a _ _ hb, if_neg (by omega)]
  · obtain ⟨j, hbj⟩ : ∃ j, b = a.toNat - a.toNat % 4 + j := ⟨b - (a.toNat - a.toNat % 4), by omega⟩
    have hj : j < 4 := by omega
    rw [hbj, ramByte_ramWriteLanes_lane hm a _ _ hj, getLsbD_byteen hn ha hj, ← hbj]
    by_cases henabled : a.toNat % 4 ≤ j ∧ j < a.toNat % 4 + n
    · obtain ⟨k, rfl⟩ : ∃ k, j = a.toNat % 4 + k := ⟨j - a.toNat % 4, by omega⟩
      have hk : b - a.toNat = k := by omega
      rw [if_pos (decide_eq_true henabled), if_pos (by omega), busData_lane hn ha _ _ (by omega), hk]
    · rw [if_neg (by simpa using henabled), if_neg (by omega)]

/-! ### Loads and stores under the controls -/

/-- The load of `DMSel` is of `accessBytes` bytes, which DM gives from the aligned word as `Q`. -/
theorem loadEffect_stop (dmSel : BitVec 3) (r : Reg) (a : Word) (s : State) :
    (loadEffect dmSel r a).stop s = (dataFault s.params a (accessBytes dmSel)).map .fault := by
  have hsel : dmSel = 0#3 ∨ dmSel = 1#3 ∨ dmSel = 2#3 ∨ dmSel = 3#3 ∨ dmSel = 4#3 ∨ dmSel = 5#3 ∨ dmSel = 6#3 ∨
      dmSel = 7#3 := by
    revert dmSel
    decide
  rcases hsel with rfl | rfl | rfl | rfl | rfl | rfl | rfl | rfl <;> rfl

/-- `DMSel` of a load. -/
def LoadSel (dmSel : BitVec 3) : Prop := PlainSel dmSel ∨ dmSel = 0b100#3 ∨ dmSel = 0b101#3

theorem loadEffect_after {dmSel : BitVec 3} (hsel : LoadSel dmSel) {a : Word} (ha : a.toNat % accessBytes dmSel = 0)
    (r : Reg) (s : State) :
    (loadEffect dmSel r a).after s = (s.writeBack r (qModule dmSel a (ramWord s.ram a))).advance := by
  rcases hsel with (rfl | rfl | rfl) | rfl | rfl
  case inl.inl | inr.inl => rfl
  case inl.inr.inr =>
    have hlane : 8 * (a.toNat % 4) = 0 := by
      have hword : a.toNat % 4 = 0 := ha
      omega
    have hread : s.memRead a 4 = ramWord s.ram a := by
      rw [State.memRead, hlane]
      exact BitVec.extractLsb'_eq_self
    exact congrArg (fun v => (s.writeBack r v).advance) hread
  all_goals
    have hlane : 8 * (a.toNat % 4) = 16 * (a.toNat / 2 % 2) := by
      have hhalf : a.toNat % 2 = 0 := ha
      omega
    have hread : s.memRead a 2 = (ramWord s.ram a).extractLsb' (16 * (a.toNat / 2 % 2)) 16 := by
      rw [State.memRead, hlane]
  · exact congrArg (fun v => (s.writeBack r (BitVec.signExtend 32 v)).advance) hread
  · exact congrArg (fun v => (s.writeBack r (BitVec.setWidth 32 v)).advance) hread

theorem ctrlEffect_load {c : Controls} (hc : c.Sound) (hwe : c.grfWE = true) (hwd : c.wdSel = 0b01#2) (w : Word)
    (s : State) : ctrlEffect c w s = loadEffect c.dmSel (ctrlDest c w) (ctrlResult c w s) := by
  have hdm : c.dmWE ≠ true := fun hdm => by
    rw [(hc.store hdm).2.1] at hwe
    cases hwe
  rw [ctrlEffect_of_sequential (hc.load hwe hwd).1, ctrlSequential, if_neg hdm, if_pos hwe, if_pos hwd]

theorem ctrlEffect_store {c : Controls} (hc : c.Sound) (hdm : c.dmWE = true) (w : Word) (s : State) :
    ctrlEffect c w s = storeEffect c.dmSel (ctrlResult c w s) (s.x (fRt w)) := by
  rw [ctrlEffect_of_sequential (hc.store hdm).1, ctrlSequential, if_pos hdm]

theorem Controls.Sound.loadSel {c : Controls} (hc : c.Sound) (hwe : c.grfWE = true) (hwd : c.wdSel = 0b01#2) :
    LoadSel c.dmSel := by
  obtain ⟨-, -, h | h | h | h | h⟩ := hc.load hwe hwd
  · exact .inl (.inl h)
  · exact .inl (.inr (.inl h))
  · exact .inl (.inr (.inr h))
  · exact .inr (.inl h)
  · exact .inr (.inr h)

theorem Controls.Sound.plainSel {c : Controls} (hc : c.Sound) (hdm : c.dmWE = true) : PlainSel c.dmSel := by
  obtain ⟨-, -, -, -, -, -, -, hsel⟩ := hc.store hdm
  exact hsel

/-- The controls of a load and of a store: what is selected for the address, and which register a load writes. -/
theorem instrControls_load (op fn : BitVec 6) (rt : Reg) {i : Instr} (h : instrClass i = some .load) :
    (instrControls op fn rt i).grfWE = true ∧ (instrControls op fn rt i).wdSel = 0b01#2 ∧
      (∀ w, ctrlDest (instrControls op fn rt i) w = fRt w) ∧
        ∀ w s, ctrlResult (instrControls op fn rt i) w s = s.effectiveAddress (fRs w) (fImm w) := by
  cases i with
  | lb | lh | lw | lbu | lhu => exact ⟨rfl, rfl, fun _ => rfl, fun _ _ => rfl⟩
  | _ => cases h

theorem instrControls_store (op fn : BitVec 6) (rt : Reg) {i : Instr} (h : instrClass i = some .store) :
    (instrControls op fn rt i).dmWE = true ∧
      ∀ w s, ctrlResult (instrControls op fn rt i) w s = s.effectiveAddress (fRs w) (fImm w) := by
  cases i with
  | sb | sh | sw => exact ⟨rfl, fun _ _ => rfl⟩
  | _ => cases h

theorem aligned_of_dataFault_none {p : Params} {a : Word} {n : Nat}
    (h : (dataFault p a n).map Host.Outcome.fault = (none : Option Result)) : a.toNat % n = 0 :=
  ((dataFault_none ..).mp (Option.map_eq_none_iff.mp h)).1

/-- Settles O59: DM's lanes against `MemRead` and `MemWrite`, where the access is legal. -/
theorem memoryUnitAgrees : Obligations.MemoryUnitAgrees := by
  unfold Obligations.MemoryUnitAgrees
  refine ⟨?_, fun _ _ => rfl⟩
  rintro w i s t c a rdata hdec hexec rfl rfl
  obtain ⟨hstop, rfl⟩ := exec_next.mp hexec
  have heff := effect_eq_ctrlEffect hdec s
  have hsound := ctrlOf_sound w
  refine ⟨fun hclass hne => ?load, fun hclass hwf b => ?store⟩
  case load =>
    have hctrl := instrControls_load (fOpcode w) (fFunct w) (fRt w) hclass
    rw [← ctrlOf_of_instr hdec] at hctrl
    obtain ⟨hwe, hwd, hdest, haddr⟩ := hctrl
    rw [heff, ctrlEffect_load hsound hwe hwd, hdest, haddr] at hstop ⊢
    rw [loadEffect_stop] at hstop
    rw [loadEffect_after (hsound.loadSel hwe hwd) (aligned_of_dataFault_none hstop)]
    exact (s.writesReg_writeBack (fRt w) _).1.trans (if_neg hne)
  case store =>
    have hctrl := instrControls_store (fOpcode w) (fFunct w) (fRt w) hclass
    rw [← ctrlOf_of_instr hdec] at hctrl
    obtain ⟨hdm, haddr⟩ := hctrl
    rw [heff, ctrlEffect_store hsound hdm, haddr] at hstop ⊢
    have hs := Memory.wf_rising hwf
    have halign := aligned_of_dataFault_none hstop
    have hlanes := ramByte_storeLanes hs hs (fun _ => rfl) (hsound.plainSel hdm) halign (s.x (fRt w)) rdata b
    change _ = ramByte (ramWriteLanes _ _ (byteenModule (ctrlOf w).dmWE _ _) (wdataModule (ctrlOf w).dmWE _ _ _ _)) b
    rw [hdm]
    exact hlanes.symm

end Sys2Proof.Machine
end

section
/-! What a completed architectural step leaves, in the terms of the controls of its word: the register written and its
value, the store, `HI` and `LO`, the next address, and the stops. The pipeline computes the same terms stage by stage. -/

namespace Sys2Proof.Machine

/-! ### The effects that consistent controls can give -/

/-- The six shapes of `ctrlEffect` under consistent controls, with what each says of the write enables. -/
inductive CtrlShape (c : Controls) (w : Word) (s : State) : Effect → Prop where
  | transfer (checked : Bool) (hnpc : checked = true ↔ c.npcSel = 0b11#2) (hdm : c.dmWE = false)
      (hunit : c.isMultDiv = false) (hwd : c.grfWE = true → c.wdSel = 0b11#2) :
      CtrlShape c w s (.transfer (ctrlNpc c w s) (ctrlLink c w) checked)
  | store (hnpc : c.npcSel = 0b00#2) (hdm : c.dmWE = true) (hwe : c.grfWE = false) (hunit : c.isMultDiv = false)
      (hsel : PlainSel c.dmSel) : CtrlShape c w s (storeEffect c.dmSel (ctrlResult c w s) (s.x (fRt w)))
  | load (hnpc : c.npcSel = 0b00#2) (hdm : c.dmWE = false) (hwe : c.grfWE = true) (hwd : c.wdSel = 0b01#2)
      (hunit : c.isMultDiv = false) (hsel : LoadSel c.dmSel) :
      CtrlShape c w s (loadEffect c.dmSel (ctrlDest c w) (ctrlResult c w s))
  | write (hnpc : c.npcSel = 0b00#2) (hdm : c.dmWE = false) (hwe : c.grfWE = true) (hwd : c.wdSel ≠ 0b01#2)
      (hunit : c.isMultDiv = true → c.multSel = 0b000#3 ∨ c.multSel = 0b010#3) :
      CtrlShape c w s
        (.write (ctrlDest c w) (muxWD c.wdSel (ctrlResult c w s) 0#32 (extModule c.extSel (fImm w)) s.linkValue))
  | unit (hnpc : c.npcSel = 0b00#2) (hdm : c.dmWE = false) (hwe : c.grfWE = false) (hunit : c.isMultDiv = true) :
      CtrlShape c w s (multEffect c.multSel (s.x (fRs w)) (s.x (fRt w)))
  | nothing (hnpc : c.npcSel = 0b00#2) (hdm : c.dmWE = false) (hwe : c.grfWE = false) (hunit : c.isMultDiv = false) :
      CtrlShape c w s (.hiLo none none)

theorem ctrlSequential_shape {c : Controls} (hc : c.Sound) (hnpc : c.npcSel = 0b00#2) (w : Word) (s : State) :
    CtrlShape c w s (ctrlSequential c w s) := by
  unfold ctrlSequential
  split
  · next hdm =>
    obtain ⟨-, hwe, hunit, -⟩ := hc.store hdm
    exact .store hnpc hdm hwe hunit (hc.plainSel hdm)
  · next hdm =>
    have hdm : c.dmWE = false := by simpa using hdm
    split
    · next hwe =>
      split
      · next hwd =>
        obtain ⟨-, hunit, -⟩ := hc.load hwe hwd
        exact .load hnpc hdm hwe hwd hunit (hc.loadSel hwe hwd)
      · next hwd =>
        refine .write hnpc hdm hwe hwd fun hunit => ?_
        obtain ⟨-, -, hread, -⟩ := hc.unit hunit
        exact hread hwe
    · next hwe =>
      have hwe : c.grfWE = false := by simpa using hwe
      split
      · next hunit => exact .unit hnpc hdm hwe hunit
      · next hunit => exact .nothing hnpc hdm hwe (by simpa using hunit)

theorem ctrlEffect_shape {c : Controls} (hc : c.Sound) (w : Word) (s : State) : CtrlShape c w s (ctrlEffect c w s) := by
  unfold ctrlEffect
  split
  · next hnpc => exact ctrlSequential_shape hc hnpc w s
  · next hnpc =>
    obtain ⟨hdm, hunit, hwd⟩ := hc.transfer (by rw [hnpc]; decide)
    exact .transfer true (by simp [hnpc]) hdm hunit hwd
  · next h0 h3 =>
    obtain ⟨hdm, hunit, hwd⟩ := hc.transfer h0
    exact .transfer false (by simpa using h3) hdm hunit hwd

/-! ### What the controls say a word writes -/

/-- The aligned word that a load reads, through DM. -/
def ctrlLoaded (c : Controls) (w : Word) (s : State) : Word :=
  qModule c.dmSel (ctrlResult c w s) (ramWord s.ram (ctrlResult c w s))

/-- What MUX_GRF_WD_W gives (rule R309). -/
def ctrlValue (c : Controls) (w : Word) (s : State) : Word :=
  muxWD c.wdSel (ctrlResult c w s) (ctrlLoaded c w s) (extModule c.extSel (fImm w)) s.linkValue

/-- MUX_GRF_WD_W passes `DM_Q` on for one selector only. -/
theorem muxWD_of_ne {sel : BitVec 2} (h : sel ≠ 0b01#2) (op q q' ext pc8 : Word) :
    muxWD sel op q ext pc8 = muxWD sel op q' ext pc8 := by
  rcases sel_cases sel with rfl | rfl | rfl | rfl
  case inr.inl => exact absurd rfl h
  all_goals rfl

/-- `HI` and `LO` after MULT is given these operands and the operation has ended. -/
def multLeaves (multSel : BitVec 3) (a b hi lo : Word) : Word × Word :=
  if multSel.getLsbD 2 then multCompute multSel a b
  else if multSel = 0b001#3 then (a, lo) else if multSel = 0b011#3 then (hi, a) else (hi, lo)

/-- `HI` and `LO` after a word. -/
def ctrlHiLo (c : Controls) (w : Word) (s : State) : Word × Word :=
  if c.isMultDiv then multLeaves c.multSel (s.x (fRs w)) (s.x (fRt w)) s.hi s.lo else (s.hi, s.lo)

/-- The store that DM makes of a word, as a trace shows it. -/
def ctrlStore (c : Controls) (w : Word) (s : State) : Word × BitVec 4 × Word :=
  (ctrlResult c w s, byteen (ctrlResult c w s) (accessBytes c.dmSel),
    (s.x (fRt w) <<< (8 * ((ctrlResult c w s).toNat % 4))) &&&
      laneMask (byteen (ctrlResult c w s) (accessBytes c.dmSel)))

/-- The controls are those of a load or a store. -/
def Controls.accesses (c : Controls) : Bool := c.dmWE || (c.grfWE && c.wdSel == 0b01#2)

/-! ### Legal accesses and stops -/

theorem CtrlShape.dataFault_none {c : Controls} {w : Word} {s : State} {e : Effect} (h : CtrlShape c w s e)
    (hstop : e.stop s = none) (hacc : c.accesses = true) :
    dataFault s.params (ctrlResult c w s) (accessBytes c.dmSel) = none := by
  cases h with
  | store => exact Option.map_eq_none_iff.mp hstop
  | load =>
    rw [loadEffect_stop] at hstop
    exact Option.map_eq_none_iff.mp hstop
  | transfer checked hnpc hdm hunit hwd =>
    obtain ⟨hwe, hload⟩ : c.grfWE = true ∧ c.wdSel = 0b01#2 := by simpa [Controls.accesses, hdm] using hacc
    rw [hwd hwe] at hload
    cases hload
  | write hnpc hdm hwe hwd => exact absurd hacc (by simp [Controls.accesses, hdm, hwe, hwd])
  | unit hnpc hdm hwe => exact absurd hacc (by simp [Controls.accesses, hdm, hwe])
  | nothing hnpc hdm hwe => exact absurd hacc (by simp [Controls.accesses, hdm, hwe])

/-- MULT touches `HI` and `LO` only. -/
theorem multEffect_eq_hiLo (sel : BitVec 3) (a b : Word) : ∃ hi lo, multEffect sel a b = .hiLo hi lo := by
  unfold multEffect
  split <;> exact ⟨_, _, rfl⟩

theorem multEffect_stop (sel : BitVec 3) (a b : Word) (s : State) : (multEffect sel a b).stop s = none := by
  unfold multEffect
  split <;> rfl

theorem ctrlNpc_jump {c : Controls} (h : c.npcSel = 0b11#2) (w : Word) (s : State) : ctrlNpc c w s = s.x (fRs w) := by
  rw [ctrlNpc, h]
  rfl

/-- A register jump that completes has an aligned target. -/
theorem CtrlShape.jump_aligned {c : Controls} {w : Word} {s : State} {e : Effect} (h : CtrlShape c w s e)
    (hstop : e.stop s = none) (hjump : c.npcSel = 0b11#2) : instrAligned (s.x (fRs w)) = true := by
  cases h with
  | transfer checked hnpc =>
    obtain rfl := hnpc.mpr hjump
    rw [ctrlNpc_jump hjump] at hstop
    by_contra halign
    simp only [Effect.stop] at hstop
    split at hstop
    · cases hstop
    · simp [halign] at hstop
  | store hnpc | load hnpc | write hnpc | unit hnpc | nothing hnpc =>
    rw [hnpc] at hjump
    cases hjump

/-- A fault of an instruction is that of its data access or of its register jump. -/
theorem CtrlShape.fault_cases {c : Controls} {w : Word} {s : State} {e : Effect} (h : CtrlShape c w s e) {f : Fault}
    (hstop : e.stop s = some (.fault f)) :
    (c.accesses = true ∧ dataFault s.params (ctrlResult c w s) (accessBytes c.dmSel) = some f) ∨
      (c.npcSel = 0b11#2 ∧ instrAligned (s.x (fRs w)) = false ∧
        f = .misalignedInstructionAddress (s.x (fRs w))) := by
  cases h with
  | transfer checked hnpc =>
    simp only [Effect.stop] at hstop
    split at hstop
    · cases hstop
    · split at hstop
      · next hcheck =>
        obtain ⟨hchecked, halign⟩ : checked = true ∧ instrAligned (ctrlNpc c w s) = false := by simpa using hcheck
        have hjump := hnpc.mp hchecked
        rw [ctrlNpc_jump hjump] at halign hstop
        cases hstop
        exact .inr ⟨hjump, halign, rfl⟩
      · cases hstop
  | store hnpc hdm =>
    refine .inl ⟨by simp [Controls.accesses, hdm], ?_⟩
    obtain ⟨f', hf, heq⟩ := Option.map_eq_some_iff.mp hstop
    cases heq
    exact hf
  | load hnpc hdm hwe hwd =>
    refine .inl ⟨by simp [Controls.accesses, hwe, hwd], ?_⟩
    rw [loadEffect_stop] at hstop
    obtain ⟨f', hf, heq⟩ := Option.map_eq_some_iff.mp hstop
    cases heq
    exact hf
  | write | nothing => cases hstop
  | unit =>
    rw [multEffect_stop] at hstop
    cases hstop

/-! ### What is left -/

theorem CtrlShape.after_gpr {c : Controls} {w : Word} {s : State} {e : Effect} (h : CtrlShape c w s e)
    (hstop : e.stop s = none) :
    (e.after s).gpr = if c.grfWE then writeReg s.gpr (ctrlDest c w) (ctrlValue c w s) else s.gpr := by
  cases h with
  | transfer checked hnpc hdm hunit hwd =>
    rw [Effect.after, State.advanceTo_gpr, ctrlLink]
    cases hwe : c.grfWE with
    | false => rfl
    | true =>
      rw [ctrlValue, hwd hwe]
      rfl
  | store hnpc hdm hwe =>
    rw [hwe]
    rfl
  | load hnpc hdm hwe hwd hunit hsel =>
    have halign := aligned_of_dataFault_none ((loadEffect_stop ..).symm.trans hstop)
    rw [loadEffect_after hsel halign, hwe, ctrlValue, hwd]
    rfl
  | write hnpc hdm hwe hwd =>
    rw [hwe, ctrlValue, muxWD_of_ne hwd _ (ctrlLoaded c w s) 0#32]
    rfl
  | unit hnpc hdm hwe =>
    obtain ⟨hi, lo, he⟩ := multEffect_eq_hiLo c.multSel (s.x (fRs w)) (s.x (fRt w))
    rw [hwe, he]
    rfl
  | nothing hnpc hdm hwe =>
    rw [hwe]
    rfl

theorem regWrites_append (es es' : List Event) : regWrites (es ++ es') = regWrites es ++ regWrites es' :=
  List.filterMap_append

theorem stores_append (es es' : List Event) : stores (es ++ es') = stores es ++ stores es' :=
  List.filterMap_append

theorem CtrlShape.after_regWrites {c : Controls} {w : Word} {s : State} {e : Effect} (h : CtrlShape c w s e)
    (hstop : e.stop s = none) :
    regWrites (e.after s).events =
      regWrites s.events ++ if c.grfWE then [(ctrlDest c w, ctrlValue c w s)] else [] := by
  cases h with
  | transfer checked hnpc hdm hunit hwd =>
    rw [Effect.after, State.advanceTo_events, ctrlLink]
    cases hwe : c.grfWE with
    | false => exact (List.append_nil _).symm
    | true =>
      rw [ctrlValue, hwd hwe]
      exact regWrites_append ..
  | store hnpc hdm hwe =>
    rw [hwe]
    exact regWrites_append ..
  | load hnpc hdm hwe hwd hunit hsel =>
    have halign := aligned_of_dataFault_none ((loadEffect_stop ..).symm.trans hstop)
    rw [loadEffect_after hsel halign, hwe, ctrlValue, hwd]
    exact regWrites_append ..
  | write hnpc hdm hwe hwd =>
    rw [hwe, ctrlValue, muxWD_of_ne hwd _ (ctrlLoaded c w s) 0#32]
    exact regWrites_append ..
  | unit hnpc hdm hwe =>
    obtain ⟨hi, lo, he⟩ := multEffect_eq_hiLo c.multSel (s.x (fRs w)) (s.x (fRt w))
    rw [hwe, he]
    exact (List.append_nil _).symm
  | nothing hnpc hdm hwe =>
    rw [hwe]
    exact (List.append_nil _).symm

/-- In the enabled lanes the bus shows the value, whatever the others hold. -/
theorem busData_and_mask (a : Word) (n : Nat) (v : BitVec (8 * n)) (idle : Word) :
    busData a n v idle &&& laneMask (byteen a n) =
      (v.setWidth 32 <<< (8 * (a.toNat % 4))) &&& laneMask (byteen a n) := by
  rw [busData]
  refine BitVec.eq_of_getLsbD_eq fun i hi => ?_
  simp only [BitVec.getLsbD_and, BitVec.getLsbD_or, BitVec.getLsbD_not, hi, decide_true, Bool.true_and]
  cases (laneMask (byteen a n)).getLsbD i <;> simp

/-- What DM shows in the enabled lanes is the store of the architectural level. -/
theorem wdataModule_and_mask {dmSel : BitVec 3} (hsel : PlainSel dmSel) {a : Word}
    (ha : a.toNat % accessBytes dmSel = 0) (d rdata : Word) :
    wdataModule true dmSel a d rdata &&& laneMask (byteen a (accessBytes dmSel)) =
      (d <<< (8 * (a.toNat % 4))) &&& laneMask (byteen a (accessBytes dmSel)) := by
  rw [wdataModule, byteenModule_eq_byteen hsel ha]
  refine BitVec.eq_of_getLsbD_eq fun i hi => ?_
  simp only [BitVec.getLsbD_and, BitVec.getLsbD_or, BitVec.getLsbD_not, hi, decide_true, Bool.true_and]
  cases (laneMask (byteen a (accessBytes dmSel))).getLsbD i <;> simp

theorem CtrlShape.after_stores {c : Controls} {w : Word} {s : State} {e : Effect} (h : CtrlShape c w s e)
    (hstop : e.stop s = none) :
    stores (e.after s).events = stores s.events ++ if c.dmWE then [ctrlStore c w s] else [] := by
  cases h with
  | transfer checked hnpc hdm hunit hwd =>
    rw [Effect.after, State.advanceTo_events, ctrlLink, hdm]
    cases hwe : c.grfWE with
    | false => exact (List.append_nil _).symm
    | true => exact stores_append ..
  | store hnpc hdm hwe hunit hsel =>
    have halign := aligned_of_dataFault_none hstop
    have hbus := (wdataModule_eq_busData hsel halign (s.x (fRt w)) 0#32).symm
    rw [hdm, if_pos rfl, ctrlStore, ← wdataModule_and_mask hsel halign _ 0#32, ← hbus, busData_and_mask,
      ← busData_and_mask _ _ _ (Config.idleLanes s.events.length)]
    exact stores_append ..
  | load hnpc hdm hwe hwd hunit hsel =>
    have halign := aligned_of_dataFault_none ((loadEffect_stop ..).symm.trans hstop)
    rw [loadEffect_after hsel halign, hdm]
    exact stores_append ..
  | write hnpc hdm hwe hwd =>
    rw [hdm]
    exact stores_append ..
  | unit hnpc hdm hwe =>
    obtain ⟨hi, lo, he⟩ := multEffect_eq_hiLo c.multSel (s.x (fRs w)) (s.x (fRt w))
    rw [hdm, he]
    exact (List.append_nil _).symm
  | nothing hnpc hdm hwe =>
    rw [hdm]
    exact (List.append_nil _).symm

theorem loadEffect_isStore (dmSel : BitVec 3) (r : Reg) (a : Word) : (loadEffect dmSel r a).isStore = false := by
  unfold loadEffect
  split <;> rfl

theorem multEffect_isStore (sel : BitVec 3) (a b : Word) : (multEffect sel a b).isStore = false := by
  unfold multEffect
  split <;> rfl

/-- Without `DMWE` the data memory stays. -/
theorem CtrlShape.after_ram {c : Controls} {w : Word} {s : State} {e : Effect} (h : CtrlShape c w s e)
    (hdm : c.dmWE = false) : (e.after s).ram = s.ram := by
  refine Effect.after_ram s ?_
  cases h with
  | store _ hdm' =>
    rw [hdm] at hdm'
    cases hdm'
  | load => exact loadEffect_isStore ..
  | unit => exact multEffect_isStore ..
  | _ => rfl

/-- With it DM's lanes are written. -/
theorem CtrlShape.after_ramByte {c : Controls} {w : Word} {s : State} {e : Effect} (h : CtrlShape c w s e)
    (hstop : e.stop s = none) (hdm : c.dmWE = true) (hs : s.ram.rising = true) {m : Memory} (hm : m.rising = true)
    (hsame : ∀ b, ramByte m b = ramByte s.ram b) (rdata : Word) (b : Nat) :
    ramByte (ramWriteLanes m (ctrlResult c w s) (byteenModule true c.dmSel (ctrlResult c w s))
      (wdataModule true c.dmSel (ctrlResult c w s) (s.x (fRt w)) rdata)) b = ramByte (e.after s).ram b := by
  cases h with
  | store _ _ _ _ hsel =>
    exact ramByte_storeLanes hs hm hsame hsel (aligned_of_dataFault_none hstop) _ rdata b
  | transfer _ _ hdm' | load _ hdm' | write _ hdm' | unit _ hdm' | nothing _ hdm' =>
    rw [hdm] at hdm'
    cases hdm'

theorem CtrlShape.after_hiLo {c : Controls} {w : Word} {s : State} {e : Effect} (h : CtrlShape c w s e) :
    ((e.after s).hi, (e.after s).lo) = ctrlHiLo c w s := by
  unfold ctrlHiLo
  cases h with
  | transfer checked hnpc hdm hunit =>
    rw [hunit]
    simp [Effect.after]
  | store _ _ _ hunit | nothing _ _ _ hunit =>
    rw [hunit]
    rfl
  | load _ _ _ _ hunit =>
    rw [hunit]
    unfold loadEffect
    split <;> rfl
  | write _ _ _ _ hunit =>
    cases hmd : c.isMultDiv with
    | false => rfl
    | true => rcases hunit hmd with hsel | hsel <;> (rw [hsel]; rfl)
  | unit _ _ _ hunit =>
    rw [hunit, if_pos rfl, multEffect_eq, multLeaves]
    split
    · rfl
    · split
      · rfl
      · split <;> rfl

end Sys2Proof.Machine
end

section
/-! The stages of the pipeline against the instructions in them (rules R262, R266). For an architectural state `s` the word
at its `pc` fixes what each stage must hold when that instruction is in it: `HoldsE`, `HoldsM` and `HoldsW`. An edge hands
the instruction on, and the values of the stages are those of the architectural step. -/

namespace Sys2Proof.Machine

/-! ### The instruction at `pc` -/

/-- The word at `pc`; 0 where the ROM gives none. -/
def State.wordAt (s : State) : Word :=
  match fetchWord s.params s.rom s.pc with
  | .word w => w
  | .stop _ => 0#32

/-- Its controls, and what they make of it. -/
abbrev State.ctrl (s : State) : Controls := ctrlOf s.wordAt
abbrev State.result (s : State) : Word := ctrlResult s.ctrl s.wordAt s
abbrev State.dest (s : State) : Reg := ctrlDest s.ctrl s.wordAt
abbrev State.value (s : State) : Word := ctrlValue s.ctrl s.wordAt s
abbrev State.effectAt (s : State) : Effect := ctrlEffect s.ctrl s.wordAt s

theorem State.wordAt_of_fetch {s : State} {w : Word} (h : fetchWord s.params s.rom s.pc = .word w) : s.wordAt = w := by
  rw [State.wordAt, h]

theorem State.shape (s : State) : CtrlShape s.ctrl s.wordAt s s.effectAt := ctrlEffect_shape (ctrlOf_sound _) _ _

/-- The controls of a word of no row have no effect. -/
theorem State.effectAt_of_rejected {s : State} {e : DecodeError} (h : decodeWord s.wordAt = .rejected e) :
    s.effectAt = .hiLo none none := by
  rw [State.effectAt, State.ctrl, ctrlOf_of_rejected h]
  rfl

/-- A step that goes on fetches a word and carries its effect out. -/
theorem State.effectAt_of_step {s t : State} (hreset : s.resetPin = false) (h : step s = .next t) :
    s.effectAt.stop s = none ∧ t = s.effectAt.after s := by
  obtain ⟨hr, -⟩ | ⟨-, w, hfetch, ⟨i, hdec, hexec⟩ | ⟨e, hdec, -, rfl⟩⟩ := step_next.mp h
  · rw [hreset] at hr
    cases hr
  · rw [exec_next, effect_eq_ctrlEffect hdec, ← State.wordAt_of_fetch hfetch] at hexec
    exact hexec
  · rw [State.effectAt_of_rejected (State.wordAt_of_fetch hfetch ▸ hdec)]
    exact ⟨rfl, rfl⟩

/-! ### The contents of the stages -/

/-- FR_E with the controls and fields of the instruction at `s.pc`; the operands and their forwarding are kept. -/
def FRE.fill (f : FRE) (s : State) : FRE :=
  { f with
    dmWE := s.ctrl.dmWE, grfWE := s.ctrl.grfWE, dmSel := s.ctrl.dmSel, funcSel := s.ctrl.funcSel,
    opSel := s.ctrl.opSel, wdSel := s.ctrl.wdSel, aluBSel := s.ctrl.aluBSel, opESel := s.ctrl.opESel,
    multSel := s.ctrl.multSel, isMultDiv := s.ctrl.isMultDiv, shamt := fShamt s.wordAt, a3 := s.dest,
    ext32 := extModule s.ctrl.extSel (fImm s.wordAt), pc8 := s.linkValue, shiftByReg := s.ctrl.shiftByReg,
    live := true }

/-- FR_M with them; the result and the store data are kept. -/
def FRM.fill (f : FRM) (s : State) : FRM :=
  { f with
    dmWE := s.ctrl.dmWE, grfWE := s.ctrl.grfWE, dmSel := s.ctrl.dmSel, wdSel := s.ctrl.wdSel, a3 := s.dest,
    ext32 := extModule s.ctrl.extSel (fImm s.wordAt), pc8 := s.linkValue, live := true }

/-- FR_W with them; the result and the loaded value are kept. -/
def FRW.fill (f : FRW) (s : State) : FRW :=
  { f with
    grfWE := s.ctrl.grfWE, wdSel := s.ctrl.wdSel, a3 := s.dest, ext32 := extModule s.ctrl.extSel (fImm s.wordAt),
    pc8 := s.linkValue, live := true }

/-- The store data as FMUX_DM_D_M will have it after the next edge. -/
def PipeState.dmDNext (p : PipeState) : Word := if p.frE.fmuxDM then p.dmQ else p.v2E

/-- The instruction uses MUX_OP_E's output: for an address, or to write it back. -/
def Controls.UsesResult (c : Controls) : Prop :=
  c.dmWE = true ∨ c.grfWE = true ∧ (c.wdSel = 0b00#2 ∨ c.wdSel = 0b01#2)

/-- Stage E holds the instruction at `s.pc`, with the operands it uses in E or later. -/
structure PipeState.HoldsE (p : PipeState) (s : State) : Prop where
  fill : p.frE = p.frE.fill s
  v1 : s.ctrl.tuseRs = 1#2 → p.v1E = s.x (fRs s.wordAt)
  v2 : s.ctrl.tuseRt = 1#2 → p.v2E = s.x (fRt s.wordAt)
  data : s.ctrl.tuseRt = 2#2 → p.dmDNext = s.x (fRt s.wordAt)

/-- Stage M holds it, with its result and its store data. -/
structure PipeState.HoldsM (p : PipeState) (s : State) : Prop where
  fill : p.frM = p.frM.fill s
  op : s.ctrl.UsesResult → p.frM.op = s.result
  data : s.ctrl.dmWE = true → p.dmD = s.x (fRt s.wordAt)

/-- Stage W holds it, with the value it writes back. -/
structure PipeState.HoldsW (p : PipeState) (s : State) : Prop where
  fill : p.frW = p.frW.fill s
  value : s.ctrl.grfWE = true → p.wdW = s.value

/-- A write port that changes nothing: off, or to register 0 (the bubble behind the reset word). -/
def IdlePort (we : Bool) (a3 : Reg) (wdSel : BitVec 2) : Prop := we = true → a3 = 0#5 ∧ wdSel = 0b00#2

/-- A stage with no instruction in it. -/
structure FRE.Empty (f : FRE) : Prop where
  live : f.live = false
  dmWE : f.dmWE = false
  isMultDiv : f.isMultDiv = false
  port : IdlePort f.grfWE f.a3 f.wdSel

structure FRM.Empty (f : FRM) : Prop where
  live : f.live = false
  dmWE : f.dmWE = false
  port : IdlePort f.grfWE f.a3 f.wdSel

structure FRW.Empty (f : FRW) : Prop where
  live : f.live = false
  port : IdlePort f.grfWE f.a3 f.wdSel

theorem FRE.zero_empty : FRE.zero.Empty := ⟨rfl, rfl, rfl, fun h => (by cases h)⟩
theorem FRM.zero_empty : FRM.zero.Empty := ⟨rfl, rfl, fun h => (by cases h)⟩
theorem FRW.zero_empty : FRW.zero.Empty := ⟨rfl, fun h => (by cases h)⟩

theorem IdlePort.matched {we : Bool} {a3 : Reg} {wdSel : BitVec 2} (h : IdlePort we a3 wdSel) (r : Reg) :
    Producer.matched { grfWE := we, a3 := a3, wdSel := wdSel } r = false := by
  cases we with
  | false => simp [Producer.matched]
  | true => simp [Producer.matched, (h rfl).1]

theorem IdlePort.writeReg {we : Bool} {a3 : Reg} {wdSel : BitVec 2} (h : IdlePort we a3 wdSel) (g : Regs) (v : Word) :
    (if we then Machine.writeReg g a3 v else g) = g := by
  cases we with
  | false => rfl
  | true => simp [(h rfl).1, Machine.writeReg]

/-! ### Stage E -/

/-- What `HI` and `LO` will be when MULT is idle. -/
def MultUnit.final (m : MultUnit) : Word × Word := if m.count = 0 then (m.hi, m.lo) else (m.nextHi, m.nextLo)

theorem MultUnit.tick_final (m : MultUnit) : m.tick.final = m.final := by
  obtain h | h | ⟨k, h⟩ : m.count = 0 ∨ m.count = 1 ∨ ∃ k, m.count = k + 2 := by
    rcases m.count with _ | _ | k
    · exact .inl rfl
    · exact .inr (.inl rfl)
    · exact .inr (.inr ⟨k, rfl⟩)
  · rw [MultUnit.tick_idle h]
  · rw [MultUnit.tick_last h]
    simp [MultUnit.final, h]
  · rw [MultUnit.tick_busy h]
    simp [MultUnit.final, h]

theorem PipeState.count_of_not_busy {p : PipeState} (h : p.busy = false) : p.mult.count = 0 := by
  simpa [PipeState.busy] using h

/-- Where an instruction of the unit is in E, MULT is idle. -/
theorem PipeState.Interlocked.idle {p : PipeState} (h : p.Interlocked) (hunit : p.frE.isMultDiv = true) :
    p.mult.count = 0 := by
  refine PipeState.count_of_not_busy ?_
  cases hb : p.busy with
  | false => rfl
  | true =>
    rw [h hb] at hunit
    cases hunit

/-- Where E holds no instruction of the unit, MULT goes on to what it was going to leave. -/
theorem PipeState.multNext_final_of_not_unit {p : PipeState} (h : p.frE.isMultDiv = false) :
    p.multNext.final = p.mult.final := by
  have hs := PipeState.start_of_not_isMultDiv h
  cases hb : p.busy with
  | true => rw [PipeState.multNext_of_busy hs hb, MultUnit.tick_final]
  | false => simp [PipeState.multNext, hs, hb, h]

theorem multLatency_ne_zero (sel : BitVec 3) : multLatency sel ≠ 0 := by
  unfold multLatency
  split <;> decide

theorem PipeState.HoldsE.multNext_final {p : PipeState} {s : State} (h : p.HoldsE s) (hlock : p.Interlocked)
    (hfinal : p.mult.final = (s.hi, s.lo)) : p.multNext.final = ctrlHiLo s.ctrl s.wordAt s := by
  have hmd : p.frE.isMultDiv = s.ctrl.isMultDiv := congrArg FRE.isMultDiv h.fill
  have hsel : p.frE.multSel = s.ctrl.multSel := congrArg FRE.multSel h.fill
  cases hunit : s.ctrl.isMultDiv with
  | false =>
    rw [PipeState.multNext_final_of_not_unit (hmd.trans hunit), hfinal, ctrlHiLo, hunit]
    rfl
  | true =>
    obtain ⟨-, -, -, hmove, hstart⟩ := (ctrlOf_sound _).unit hunit
    have hidle : p.mult.count = 0 := hlock.idle (hmd.trans hunit)
    have hbusy : p.busy = false := by simp [PipeState.busy, hidle]
    rw [MultUnit.final, if_pos hidle] at hfinal
    obtain ⟨hhi, hlo⟩ := Prod.mk.inj hfinal
    rw [ctrlHiLo, hunit, if_pos rfl, multLeaves]
    cases hbit : s.ctrl.multSel.getLsbD 2 with
    | true =>
      obtain ⟨hrs, hrt⟩ := hstart hbit
      have hs : p.start = true := by rw [PipeState.start, multStart, hmd, hsel, hunit, hbit]; rfl
      rw [PipeState.multNext_of_start hs, MultUnit.final, if_neg (multLatency_ne_zero _), h.v1 hrs, h.v2 hrt, hsel]
      rfl
    | false =>
      have hs : p.start = false := by rw [PipeState.start, multStart, hmd, hsel, hunit, hbit]; rfl
      by_cases h1 : s.ctrl.multSel = 0b001#3
      · simp [PipeState.multNext, MultUnit.final, hs, hbusy, hmd, hsel, hunit, h1, hidle, h.v1 (hmove (.inl h1)), hlo]
      · by_cases h3 : s.ctrl.multSel = 0b011#3
        · simp [PipeState.multNext, MultUnit.final, hs, hbusy, hmd, hsel, hunit, h3, hidle, h.v1 (hmove (.inr h3)), hhi]
        · simp [PipeState.multNext, MultUnit.final, hs, hbusy, hmd, hsel, hunit, h1, h3, hidle, hhi, hlo]

/-- MUX_OP_E gives the result, where the instruction uses it. -/
theorem PipeState.HoldsE.opE {p : PipeState} {s : State} (h : p.HoldsE s) (hlock : p.Interlocked)
    (hfinal : p.mult.final = (s.hi, s.lo)) (huse : s.ctrl.UsesResult) : p.opE = s.result := by
  have hE {α : Type} (field : FRE → α) : field p.frE = field (p.frE.fill s) := congrArg field h.fill
  have hresult : s.ctrl.opESel = true ∧ s.ctrl.isMultDiv = true ∨
      s.ctrl.opESel = false ∧ s.ctrl.tuseRs = 1#2 ∧ (s.ctrl.aluBSel = true ∨ s.ctrl.tuseRt = 1#2) := by
    rcases huse with hdm | ⟨hwe, hwd⟩
    · obtain ⟨-, -, -, hop, hb, hrs, -⟩ := (ctrlOf_sound _).store hdm
      exact .inr ⟨hop, hrs, .inl hb⟩
    · exact (ctrlOf_sound _).result hwe hwd
  rw [PipeState.opE, State.result, ctrlResult, hE FRE.opESel, hE FRE.multSel]
  rcases hresult with ⟨hop, hunit⟩ | ⟨hop, hrs, hb⟩
  · rw [MultUnit.final, if_pos (hlock.idle ((hE FRE.isMultDiv).trans hunit))] at hfinal
    obtain ⟨hhi, hlo⟩ := Prod.mk.inj hfinal
    rw [hhi, hlo]
    simp only [FRE.fill, hop, if_true]
  · have haluB : p.aluB = if s.ctrl.aluBSel then extModule s.ctrl.extSel (fImm s.wordAt) else s.x (fRt s.wordAt) := by
      rw [PipeState.aluB, hE FRE.aluBSel, hE FRE.ext32]
      rcases hb with hb | hrt
      · simp only [FRE.fill, hb, if_true]
      · rw [h.v2 hrt]
        rfl
    rw [PipeState.aluOp, haluB, h.v1 hrs, hE FRE.opSel, hE FRE.funcSel, hE FRE.shiftByReg, hE FRE.shamt]
    simp only [FRE.fill, hop, Bool.false_eq_true, if_false]

/-- An edge hands the instruction in E on to M. -/
theorem PipeState.HoldsE.advance {p : PipeState} {s : State} (h : p.HoldsE s) (hlock : p.Interlocked)
    (hfinal : p.mult.final = (s.hi, s.lo)) (hold : Bool) : (p.advance hold).HoldsM s where
  fill := by
    have hE {α : Type} (field : FRE → α) : field p.frE = field (p.frE.fill s) := congrArg field h.fill
    simp only [PipeState.advance, FRM.fill, FRM.mk.injEq, true_and]
    exact ⟨hE FRE.dmWE, hE FRE.grfWE, hE FRE.dmSel, hE FRE.wdSel, hE FRE.a3, hE FRE.ext32, hE FRE.pc8, hE FRE.live⟩
  op := h.opE hlock hfinal
  data hdm := by
    obtain ⟨-, -, -, -, -, -, hrt, -⟩ := (ctrlOf_sound _).store hdm
    exact h.data hrt

theorem FRE.Empty.advance {p : PipeState} (h : p.frE.Empty) (hold : Bool) : (p.advance hold).frM.Empty :=
  ⟨h.live, h.dmWE, h.port⟩

/-! ### Stage M -/

theorem ramWord_congr {m m' : Memory} (h : ∀ b, ramByte m b = ramByte m' b) (a : Word) : ramWord m a = ramWord m' a := by
  simp only [ramWord, h]

/-- A load that completes reads the RAM inside the window. -/
theorem State.loaded {s : State} (hstop : s.effectAt.stop s = none) (hwe : s.ctrl.grfWE = true)
    (hwd : s.ctrl.wdSel = 0b01#2) {params : Params} (hparams : params = s.params) {m : Memory}
    (hsame : ∀ b, ramByte m b = ramByte s.ram b) :
    qModule s.ctrl.dmSel s.result (rdataModule params m s.result) = ctrlLoaded s.ctrl s.wordAt s := by
  have hlegal : dataFault s.params s.result (accessBytes s.ctrl.dmSel) = none :=
    s.shape.dataFault_none hstop (by simp [Controls.accesses, hwe, hwd])
  have hin : Params.dataInside params s.result 1 = true := by
    have hbytes := accessBytes_cases s.ctrl.dmSel
    rw [Machine.dataFault_none, Params.dataInside_iff] at hlegal
    rw [hparams, Params.dataInside_iff]
    omega
  rw [ctrlLoaded, rdataModule, if_pos hin, ramWord_congr hsame]

theorem muxWD_congr {sel : BitVec 2} {op op' q q' : Word} (hop : sel = 0b00#2 → op = op')
    (hq : sel = 0b01#2 → q = q') (ext pc8 : Word) : muxWD sel op q ext pc8 = muxWD sel op' q' ext pc8 := by
  rcases sel_cases sel with rfl | rfl | rfl | rfl
  · exact hop rfl
  · exact hq rfl
  · rfl
  · rfl

/-- The value that stage M's instruction will write back. -/
theorem PipeState.HoldsM.value {p : PipeState} {s : State} (h : p.HoldsM s) (hstop : s.effectAt.stop s = none)
    (hparams : p.params = s.params) (hsame : ∀ b, ramByte p.ram b = ramByte s.ram b) (hwe : s.ctrl.grfWE = true) :
    muxWD p.frM.wdSel p.frM.op p.dmQ p.frM.ext32 p.frM.pc8 = s.value := by
  have hM {α : Type} (field : FRM → α) : field p.frM = field (p.frM.fill s) := congrArg field h.fill
  rw [hM FRM.wdSel, hM FRM.ext32, hM FRM.pc8]
  refine muxWD_congr (fun hwd => h.op (.inr ⟨hwe, .inl hwd⟩)) (fun hwd => ?_) _ _
  rw [PipeState.dmQ, PipeState.rdata, h.op (.inr ⟨hwe, .inr hwd⟩), hM FRM.dmSel]
  exact State.loaded hstop hwe hwd hparams hsame

/-- An edge hands the instruction in M on to W. -/
theorem PipeState.HoldsM.advance {p : PipeState} {s : State} (h : p.HoldsM s) (hstop : s.effectAt.stop s = none)
    (hparams : p.params = s.params) (hsame : ∀ b, ramByte p.ram b = ramByte s.ram b) (hold : Bool) :
    (p.advance hold).HoldsW s where
  fill := by
    have hM {α : Type} (field : FRM → α) : field p.frM = field (p.frM.fill s) := congrArg field h.fill
    simp only [PipeState.advance, FRW.fill, FRW.mk.injEq, true_and]
    exact ⟨hM FRM.grfWE, hM FRM.wdSel, hM FRM.a3, hM FRM.ext32, hM FRM.pc8, hM FRM.live⟩
  value := h.value hstop hparams hsame

theorem FRM.Empty.advance {p : PipeState} (h : p.frM.Empty) (hold : Bool) : (p.advance hold).frW.Empty :=
  ⟨h.live, h.port⟩

/-- Without `DMWE` no lane is written. -/
theorem PipeState.ramByte_ramNext_of_not_dmWE {p : PipeState} (hwf : p.ram.wf = true) (h : p.frM.dmWE = false)
    (b : Nat) :
    ramByte p.ramNext b = ramByte p.ram b := by
  rw [PipeState.ramNext, PipeState.byteenM, h]
  exact ramByte_ramWriteLanes_zero (Memory.wf_rising hwf) _ _ b

theorem PipeState.HoldsM.ramNext {p : PipeState} {s : State} (h : p.HoldsM s) (hstop : s.effectAt.stop s = none)
    (hwf : p.ram.wf = true) (hs : s.ram.wf = true) (hsame : ∀ b, ramByte p.ram b = ramByte s.ram b) (b : Nat) :
    ramByte p.ramNext b = ramByte (s.effectAt.after s).ram b := by
  have hM {α : Type} (field : FRM → α) : field p.frM = field (p.frM.fill s) := congrArg field h.fill
  cases hdm : s.ctrl.dmWE with
  | false => rw [PipeState.ramByte_ramNext_of_not_dmWE hwf ((hM FRM.dmWE).trans hdm), s.shape.after_ram hdm, hsame]
  | true =>
    have hrising := Memory.wf_rising hs
    rw [PipeState.ramNext, PipeState.byteenM, PipeState.wdataM, h.op (.inl hdm), h.data hdm, hM FRM.dmWE, hM FRM.dmSel]
    exact (congrArg (fun we => ramByte (ramWriteLanes p.ram s.result (byteenModule we s.ctrl.dmSel s.result)
      (wdataModule we s.ctrl.dmSel s.result (s.x (fRt s.wordAt)) p.rdata)) b) hdm).trans
      (s.shape.after_ramByte hstop hdm hrising (Memory.wf_rising hwf) hsame p.rdata b)

theorem ramWriteLanes_wf {m : Memory} (hm : m.wf = true) (a : Word) (be : BitVec 4) (wdata : Word) :
    (ramWriteLanes m a be wdata).wf = true :=
  ramPut_if_wf (ramPut_if_wf (ramPut_if_wf (ramPut_if_wf hm _ _ _) _ _ _) _ _ _) _ _ _

/-- No access of a completing instruction stops in M. -/
theorem PipeState.HoldsM.stopM {p : PipeState} {s : State} (h : p.HoldsM s) (hparams : p.params = s.params) :
    p.stopM = if s.ctrl.accesses then dataFault s.params s.result (accessBytes s.ctrl.dmSel) else none := by
  have hM {α : Type} (field : FRM → α) : field p.frM = field (p.frM.fill s) := congrArg field h.fill
  have hacc : p.accessM = s.ctrl.accesses := by
    rw [PipeState.accessM, hM FRM.dmWE, hM FRM.grfWE, hM FRM.wdSel]
    rfl
  rw [PipeState.stopM, hacc]
  split
  · next hacc =>
    have huse : s.ctrl.UsesResult := by
      rcases Bool.or_eq_true_iff.mp hacc with hdm | hload
      · exact .inl hdm
      · obtain ⟨hwe, hwd⟩ := Bool.and_eq_true_iff.mp hload
        exact .inr ⟨hwe, .inr (eq_of_beq hwd)⟩
    rw [h.op huse, hparams, hM FRM.dmSel]
    rfl
  · rfl

theorem FRM.Empty.stopM {p : PipeState} (h : p.frM.Empty) : p.stopM = none := by
  have hacc : p.accessM = false := by
    cases hwe : p.frM.grfWE with
    | false => simp [PipeState.accessM, h.dmWE, hwe]
    | true => simp [PipeState.accessM, h.dmWE, (h.port hwe).2]
  rw [PipeState.stopM, hacc]
  rfl

/-! ### Stage W -/

/-- The register file after W's write is that after the step. -/
theorem PipeState.HoldsW.grfNext {p : PipeState} {s : State} (h : p.HoldsW s) (hstop : s.effectAt.stop s = none)
    (hgpr : p.gpr = s.gpr) : p.grfNext = (s.effectAt.after s).gpr := by
  have hW {α : Type} (field : FRW → α) : field p.frW = field (p.frW.fill s) := congrArg field h.fill
  rw [s.shape.after_gpr hstop, PipeState.grfNext, hgpr, hW FRW.grfWE, hW FRW.a3]
  cases hwe : s.ctrl.grfWE with
  | false => simp [FRW.fill, hwe]
  | true => simp [FRW.fill, hwe, h.value hwe]

theorem FRW.Empty.grfNext {p : PipeState} (h : p.frW.Empty) : p.grfNext = p.gpr := h.port.writeReg _ _

end Sys2Proof.Machine
end

section
/-! The correspondence between the pipeline and a run of the architectural machine (rule R262). `a 0`, `a 1`, … are the
states of the run. `Sim a n p w m e d` says how far the pipeline state `p` has come: `w` instructions are past W, `m` past
M, `e` past E and `d` past D. So W holds instruction `w` if `m = w + 1` and none if `m = w`, and so on. What a stage holds
is that of the run as long as the instruction is among the first `n`, which complete, or is the next one. -/

namespace Sys2Proof.Machine

/-! ### Stage D -/

/-- Stage D holds the instruction at `s.pc`, and F is about to fetch at `s.npc`. -/
structure PipeState.HoldsD (p : PipeState) (s : State) : Prop where
  instr : p.frD.instr = fetchWord s.params s.rom s.pc
  addr : p.frD.instrAddr = s.pc
  pc : p.pc = s.npc

theorem PipeState.HoldsD.wordD {p : PipeState} {s : State} (h : p.HoldsD s) : p.wordD = s.wordAt := by
  rw [PipeState.wordD, h.instr]
  rfl

theorem PipeState.HoldsD.ctrlD {p : PipeState} {s : State} (h : p.HoldsD s) : p.ctrlD = s.ctrl := by
  rw [PipeState.ctrlD, h.wordD]
  rfl

/-- Without a stall the instruction in D moves to E, with the latest values of the registers it reads. -/
theorem PipeState.HoldsD.advance {p : PipeState} {s : State} (h : p.HoldsD s) (hlive : p.frD.live = true)
    (hstall : p.stall = false) (hlatest : ∀ r, p.latest r = s.x r) : (p.advance false).HoldsE s := by
  obtain ⟨-, hrs, -, hrt, hdata⟩ := forwardingDeliversLatest p hstall
  have hedge : p.edge = p.advance false := by rw [PipeState.edge, hstall]
  rw [hedge, h.ctrlD, h.wordD, hlatest] at hrs hrt hdata
  refine ⟨?fill, hrs, hrt, hdata⟩
  rw [PipeState.advance_false_frE]
  simp only [PipeState.freFromD, FRE.fill, h.wordD, h.ctrlD, h.addr, hlive]
  rfl

/-- IFU_NPC gives the address after the next. -/
theorem PipeState.HoldsD.npcD {p : PipeState} {s : State} (h : p.HoldsD s) (hstall : p.stall = false)
    (hlatest : ∀ r, p.latest r = s.x r) : p.npcD = ctrlNpc s.ctrl s.wordAt s := by
  obtain ⟨hrs, -, hrt, -, -⟩ := forwardingDeliversLatest p hstall
  rw [h.ctrlD, h.wordD, hlatest] at hrs hrt
  rw [PipeState.npcD, PipeState.branchComp, h.ctrlD, h.wordD, h.pc, ctrlNpc]
  rcases sel_cases s.ctrl.npcSel with hnpc | hnpc | hnpc | hnpc
  · rw [hnpc]
    rfl
  · obtain ⟨-, hu, hcomp⟩ := (ctrlOf_sound _).branch hnpc
    rw [hrs hu]
    rcases hcomp with hrt0 | hany
    · rw [hrt hrt0]
    · rw [hany _ p.v2D (s.x (fRt s.wordAt))]
  · rw [hnpc]
    rfl
  · rw [hrs ((ctrlOf_sound _).jump hnpc), hnpc]
    rfl

/-! ### The run -/

/-- The first `n` steps of a run from `a 0` go on. -/
structure ArchRun (a : Nat → State) (n : Nat) : Prop where
  reset : (a 0).resetPin = false
  ram : (a 0).ram.wf = true
  step : ∀ j, j < n → step (a j) = .next (a (j + 1))

/-- What no step of the run changes, and the form of its memory. -/
theorem ArchRun.fixed {a : Nat → State} {n : Nat} (h : ArchRun a n) {j : Nat} (hj : j ≤ n) :
    (a j).resetPin = false ∧ (a j).rom = (a 0).rom ∧ (a j).params = (a 0).params ∧ (a j).ram.wf = true := by
  induction j with
  | zero => exact ⟨h.reset, rfl, rfl, h.ram⟩
  | succ j ih =>
    obtain ⟨hreset, hrom, hparams, hram⟩ := ih (by omega)
    obtain ⟨-, hnext⟩ := State.effectAt_of_step hreset (h.step j hj)
    obtain ⟨hrom', hparams', hreset'⟩ := (a j).effectAt.sameFixed_after (a j)
    rw [hnext]
    exact ⟨hreset'.trans hreset, hrom'.trans hrom, hparams'.trans hparams, Effect.after_ram_wf hram _⟩

theorem ArchRun.effect {a : Nat → State} {n : Nat} (h : ArchRun a n) {j : Nat} (hj : j < n) :
    (a j).effectAt.stop (a j) = none ∧ a (j + 1) = (a j).effectAt.after (a j) :=
  State.effectAt_of_step (h.fixed hj.le).1 (h.step j hj)

/-- A write port is seen by a reader of the register that the match condition says (rules R21, R273). -/
theorem readReg_writePort (g : Regs) (we : Bool) (a3 : Reg) (wdSel : BitVec 2) (v : Word) (r : Reg) :
    readReg (if we then writeReg g a3 v else g) r =
      if Producer.matched { grfWE := we, a3 := a3, wdSel := wdSel } r then v else readReg g r := by
  cases we with
  | false => simp [Producer.matched]
  | true =>
    by_cases hr : r = a3
    · subst hr
      simp [Producer.matched, readReg_writeReg]
    · simp [Producer.matched, readReg_writeReg, hr]

/-- What instruction `j` writes, a reader of the register sees. -/
theorem ArchRun.x_succ {a : Nat → State} {n : Nat} (h : ArchRun a n) {j : Nat} (hj : j < n) (r : Reg) :
    (a (j + 1)).x r =
      if Producer.matched { grfWE := (a j).ctrl.grfWE, a3 := (a j).dest, wdSel := (a j).ctrl.wdSel } r
      then (a j).value else (a j).x r := by
  obtain ⟨hstop, hnext⟩ := h.effect hj
  rw [State.x, hnext, (a j).shape.after_gpr hstop]
  exact readReg_writePort ..

/-! ### The correspondence -/

structure Sim (a : Nat → State) (n : Nat) (p : PipeState) (w m e d : Nat) : Prop where
  orderW : m = w ∨ m = w + 1
  orderM : e = m ∨ e = m + 1
  orderE : d = e ∨ d = e + 1
  reset : p.resetPin = false
  rom : p.rom = (a 0).rom
  params : p.params = (a 0).params
  canonical : p.ram.wf = true
  interlocked : p.Interlocked
  liveD : p.frD.live = true
  gpr : w ≤ n → p.gpr = (a w).gpr
  ram : m ≤ n → ∀ b, ramByte p.ram b = ramByte (a m).ram b
  hiLo : e ≤ n → p.mult.final = ((a e).hi, (a e).lo)
  holdsD : d ≤ n → p.HoldsD (a d)
  emptyW : m = w → p.frW.Empty
  emptyM : e = m → p.frM.Empty
  emptyE : d = e → p.frE.Empty
  holdsW : m = w + 1 → w < n → p.HoldsW (a w)
  holdsM : e = m + 1 → m ≤ n → p.HoldsM (a m)
  holdsE : d = e + 1 → e ≤ n → p.HoldsE (a e)

section
variable {a : Nat → State} {n w m e d : Nat} {p : PipeState}

theorem Sim.grfNext (h : Sim a n p w m e d) (hrun : ArchRun a n) (hm : m ≤ n) : p.grfNext = (a m).gpr := by
  rcases h.orderW with rfl | rfl
  · rw [(h.emptyW rfl).grfNext, h.gpr hm]
  · obtain ⟨hstop, hnext⟩ := hrun.effect hm
    rw [(h.holdsW rfl hm).grfNext hstop (h.gpr (by omega)), ← hnext]

theorem Sim.ramNext (h : Sim a n p w m e d) (hrun : ArchRun a n) (he : e ≤ n) (b : Nat) :
    ramByte p.ramNext b = ramByte (a e).ram b := by
  rcases h.orderM with rfl | rfl
  · rw [PipeState.ramByte_ramNext_of_not_dmWE h.canonical (h.emptyM rfl).dmWE, h.ram he]
  · obtain ⟨hstop, hnext⟩ := hrun.effect he
    have hm : m ≤ n := by omega
    rw [(h.holdsM rfl hm).ramNext hstop h.canonical (hrun.fixed hm).2.2.2 (h.ram hm), ← hnext]

theorem Sim.multNext (h : Sim a n p w m e d) (hrun : ArchRun a n) (hd : d ≤ n) :
    p.multNext.final = ((a d).hi, (a d).lo) := by
  rcases h.orderE with rfl | rfl
  · rw [PipeState.multNext_final_of_not_unit (h.emptyE rfl).isMultDiv, h.hiLo hd]
  · obtain ⟨-, hnext⟩ := hrun.effect hd
    have he : e ≤ n := by omega
    rw [(h.holdsE rfl he).multNext_final h.interlocked (h.hiLo he), hnext, (a e).shape.after_hiLo]

/-- Every older instruction's write reaches a reader in D. -/
theorem Sim.latest (h : Sim a n p w m e d) (hrun : ArchRun a n) (hd : d ≤ n) (r : Reg) : p.latest r = (a d).x r := by
  have hm : m ≤ n := by have := h.orderM; have := h.orderE; omega
  have he : e ≤ n := by have := h.orderE; omega
  have hbehindM : (if p.prodM.matched r then muxWD p.frM.wdSel p.frM.op p.dmQ p.frM.ext32 p.frM.pc8
      else readReg p.grfNext r) = (a e).x r := by
    rw [h.grfNext hrun hm]
    rcases h.orderM with rfl | rfl
    · rw [PipeState.prodM, (h.emptyM rfl).port.matched]
      rfl
    · have hM := h.holdsM rfl hm
      obtain ⟨hstop, -⟩ := hrun.effect he
      have hprod : p.prodM = { grfWE := (a m).ctrl.grfWE, a3 := (a m).dest, wdSel := (a m).ctrl.wdSel } := by
        rw [PipeState.prodM, hM.fill]
        rfl
      rw [hprod, hrun.x_succ he]
      split
      · next hmatch =>
        have hwe : (a m).ctrl.grfWE = true := by simp_all [Producer.matched]
        exact hM.value hstop (h.params.trans (hrun.fixed hm).2.2.1.symm) (h.ram hm) hwe
      · rfl
  rw [PipeState.latest, hbehindM]
  rcases h.orderE with rfl | rfl
  · rw [PipeState.prodE, (h.emptyE rfl).port.matched]
    rfl
  · have hE := h.holdsE rfl he
    obtain ⟨hstop, -⟩ := hrun.effect hd
    have hprod : p.prodE = { grfWE := (a e).ctrl.grfWE, a3 := (a e).dest, wdSel := (a e).ctrl.wdSel } := by
      rw [PipeState.prodE, hE.fill]
      rfl
    rw [hprod, hrun.x_succ hd]
    split
    · next hmatch =>
      have hwe : (a e).ctrl.grfWE = true := by simp_all [Producer.matched]
      have hnext : p.edge.HoldsM (a e) := hE.advance h.interlocked (h.hiLo he) p.stall
      exact hnext.value hstop (h.params.trans (hrun.fixed he).2.2.1.symm) (h.ramNext hrun he) hwe
    · rfl

/-! ### An edge keeps the correspondence -/

/-- Behind D an edge moves every instruction on; what it does to D, E's entry and PC is given. -/
theorem Sim.advance (h : Sim a n p w m e d) (hrun : ArchRun a n) {hold : Bool} {d' : Nat}
    (horder : d' = d ∨ d' = d + 1) (hlock : (p.advance hold).Interlocked) (hlive : (p.advance hold).frD.live = true)
    (hD : d' ≤ n → (p.advance hold).HoldsD (a d')) (hempty : d' = d → (p.advance hold).frE.Empty)
    (hE : d' = d + 1 → d ≤ n → (p.advance hold).HoldsE (a d)) : Sim a n (p.advance hold) m e d d' where
  orderW := h.orderM
  orderM := h.orderE
  orderE := horder
  reset := h.reset
  rom := h.rom
  params := h.params
  canonical := ramWriteLanes_wf h.canonical _ _ _
  interlocked := hlock
  liveD := hlive
  gpr := h.grfNext hrun
  ram := h.ramNext hrun
  hiLo := h.multNext hrun
  holdsD := hD
  emptyW hem := (h.emptyM hem).advance hold
  emptyM hde := (h.emptyE hde).advance hold
  emptyE := hempty
  holdsW hem hm := (h.holdsM hem hm.le).advance (hrun.effect hm).1
    (h.params.trans (hrun.fixed hm.le).2.2.1.symm) (h.ram hm.le) hold
  holdsM hde he := (h.holdsE hde he).advance h.interlocked (h.hiLo he) hold
  holdsE := hE

/-- A hold keeps D. -/
theorem Sim.advance_true (h : Sim a n p w m e d) (hrun : ArchRun a n) : Sim a n (p.advance true) m e d d :=
  h.advance hrun (.inl rfl) p.advance_true_interlocked h.liveD
    (fun hd => ⟨(h.holdsD hd).instr, (h.holdsD hd).addr, (h.holdsD hd).pc⟩) (fun _ => FRE.zero_empty)
    (fun hd => absurd hd (by omega))

/-- Without a stall D moves on to the next instruction. -/
theorem Sim.advance_false (h : Sim a n p w m e d) (hrun : ArchRun a n) (hstall : p.stall = false) :
    Sim a n (p.advance false) m e d (d + 1) := by
  have hedge : p.edge = p.advance false := by rw [PipeState.edge, hstall]
  refine h.advance hrun (.inr rfl) (hedge ▸ p.edge_interlocked) rfl (fun hd => ?D) (fun hd => absurd hd (by omega))
    (fun _ hd => (h.holdsD hd).advance h.liveD hstall (h.latest hrun hd))
  have hd' : d ≤ n := by omega
  have hold := h.holdsD hd'
  obtain ⟨-, hnext⟩ := hrun.effect hd
  obtain ⟨-, hrom, hparams, -⟩ := hrun.fixed hd
  have hpc : p.pc = (a (d + 1)).pc := by rw [hold.pc, hnext, Effect.after_pc]
  refine ⟨?_, hpc, ?_⟩
  · rw [hrom, hparams, ← h.rom, ← h.params, ← hpc]
    rfl
  · rw [PipeState.advance_false_pc, hold.npcD hstall (h.latest hrun hd'), hnext]
    exact (ctrlEffect_npc ..).symm

end

end Sys2Proof.Machine
end

section
/-! One cycle of the pipeline beside the run: it goes on and comes nearer to its end, or every older instruction is complete
and the instruction in D stops (rules R262, R275, R280; log 19). -/

namespace Sys2Proof.Machine

/-! ### Stops in D -/

/-- Why the instruction at `s.pc` stops in D: no word, a word of no row, or a register jump to an address that is not
aligned. -/
inductive State.StopsInD (s : State) : PipeResult → Prop where
  | fetch {f : Fault} (hfetch : fetchWord s.params s.rom s.pc = .stop f) : s.StopsInD (.fault f)
  | rejected {w : Word} {e : DecodeError} (hfetch : fetchWord s.params s.rom s.pc = .word w)
      (hdec : decodeWord w = .rejected e) (hnop : s.params.illegalAsNop = false) :
      s.StopsInD (.refused (.unrecognisedInstruction w))
  | jump {w : Word} {i : Instr} (hfetch : fetchWord s.params s.rom s.pc = .word w) (hdec : decodeWord w = .instr i)
      (hjump : s.ctrl.npcSel = 0b11#2) (halign : instrAligned (s.x (fRs s.wordAt)) = false) :
      s.StopsInD (.fault (.misalignedInstructionAddress (s.x (fRs s.wordAt))))

/-- The instruction at `s.pc` stops in M, at its data access. -/
structure State.StopsInM (s : State) (f : Fault) : Prop where
  decodes : ∃ w i, fetchWord s.params s.rom s.pc = .word w ∧ decodeWord w = .instr i
  accesses : s.ctrl.accesses = true
  fault : dataFault s.params s.result (accessBytes s.ctrl.dmSel) = some f

/-- An instruction is refused as a transfer in a delay slot only. -/
theorem Effect.stop_ne_unrecognised (e : Effect) (s : State) (w : Word) :
    e.stop s ≠ some (.refused (.unrecognisedInstruction w)) := by
  cases e with
  | transfer target link checked =>
    simp only [Effect.stop]
    split
    · simp
    · split <;> simp
  | _ => simp [Effect.stop]

/-- Every fault of the architectural level is a stop in D or in M. -/
theorem State.stops_of_fault {s : State} (hreset : s.resetPin = false) {f : Fault} (h : step s = .fault f) :
    s.StopsInD (.fault f) ∨ s.StopsInM f := by
  cases hfetch : fetchWord s.params s.rom s.pc with
  | stop f' =>
    rw [step_of_fetch_stop hreset hfetch] at h
    cases h
    exact .inl (.fetch hfetch)
  | word w =>
    cases hdec : decodeWord w with
    | rejected e =>
      rw [step_of_rejected hreset hfetch hdec, stepUnrecognised] at h
      split at h <;> cases h
    | instr i =>
      rw [step_of_instr hreset hfetch hdec] at h
      have hstop := effect_stop_of_exec h (fun t ht => by cases ht)
      rw [effect_eq_ctrlEffect hdec, ← State.wordAt_of_fetch hfetch] at hstop
      obtain ⟨hacc, hf⟩ | ⟨hjump, halign, rfl⟩ := s.shape.fault_cases hstop
      · exact .inr ⟨⟨w, i, hfetch, hdec⟩, hacc, hf⟩
      · exact .inl (.jump hfetch hdec hjump halign)

theorem State.stops_of_refused {s : State} (hreset : s.resetPin = false) {w : Word}
    (h : step s = .refused (.unrecognisedInstruction w)) : s.StopsInD (.refused (.unrecognisedInstruction w)) := by
  cases hfetch : fetchWord s.params s.rom s.pc with
  | stop f' =>
    rw [step_of_fetch_stop hreset hfetch] at h
    cases h
  | word w' =>
    cases hdec : decodeWord w' with
    | rejected e =>
      rw [step_of_rejected hreset hfetch hdec, stepUnrecognised] at h
      split at h
      · cases h
      · next hnop =>
        cases h
        exact .rejected hfetch hdec (by simpa using hnop)
    | instr i =>
      rw [step_of_instr hreset hfetch hdec] at h
      exact absurd (effect_stop_of_exec h fun t ht => by cases ht) ((effect s i).stop_ne_unrecognised s w)

section
variable {p : PipeState} {s : State}

/-- What stops in D, by the fetch and the word. -/
theorem PipeState.HoldsD.stopD_of_fetch_stop (h : p.HoldsD s) {f : Fault}
    (hfetch : fetchWord s.params s.rom s.pc = .stop f) : p.stopD = some (.fault f) := by
  rw [PipeState.stopD, h.instr, hfetch]

theorem PipeState.HoldsD.stopD_of_rejected (h : p.HoldsD s) {w : Word} {e : DecodeError}
    (hfetch : fetchWord s.params s.rom s.pc = .word w) (hdec : decodeWord w = .rejected e) :
    p.stopD = if p.params.illegalAsNop then none else some (.refused (.unrecognisedInstruction w)) := by
  simp [PipeState.stopD, h.instr, hfetch, hdec]

theorem PipeState.HoldsD.stopD_of_instr (h : p.HoldsD s) {w : Word} {i : Instr}
    (hfetch : fetchWord s.params s.rom s.pc = .word w) (hdec : decodeWord w = .instr i) :
    p.stopD = if s.ctrl.npcSel == 0b11#2 && !p.stall && !instrAligned p.v1D then
      some (.fault (.misalignedInstructionAddress p.v1D)) else none := by
  simp only [PipeState.stopD, h.instr, hfetch, hdec, h.ctrlD]

theorem PipeState.HoldsD.v1D_of_jump (h : p.HoldsD s) (hlatest : ∀ r, p.latest r = s.x r) (hstall : p.stall = false)
    (hjump : s.ctrl.npcSel = 0b11#2) : p.v1D = s.x (fRs s.wordAt) := by
  obtain ⟨hrs, -⟩ := forwardingDeliversLatest p hstall
  rw [hrs (h.ctrlD ▸ (ctrlOf_sound _).jump hjump), hlatest, h.wordD]

/-- An instruction that completes does not stop in D. -/
theorem PipeState.HoldsD.stopD_of_step (h : p.HoldsD s) (hlatest : ∀ r, p.latest r = s.x r)
    (hparams : p.params = s.params) (hreset : s.resetPin = false) {t : State} (hstep : step s = .next t) :
    p.stopD = none := by
  obtain ⟨hstop, -⟩ := State.effectAt_of_step hreset hstep
  obtain ⟨hr, -⟩ | ⟨-, w, hfetch, ⟨i, hdec, -⟩ | ⟨e, hdec, hnop, -⟩⟩ := step_next.mp hstep
  · rw [hreset] at hr
    cases hr
  · rw [h.stopD_of_instr hfetch hdec, if_neg]
    intro hcond
    obtain ⟨⟨hjump, hstall⟩, halign⟩ : (s.ctrl.npcSel = 0b11#2 ∧ p.stall = false) ∧ instrAligned p.v1D = false := by
      simpa using hcond
    rw [h.v1D_of_jump hlatest hstall hjump, s.shape.jump_aligned hstop hjump] at halign
    cases halign
  · rw [h.stopD_of_rejected hfetch hdec, hparams, if_pos hnop]

/-- One that stops in D does so as soon as it is not stalled. -/
theorem PipeState.HoldsD.stopD_of_stops (h : p.HoldsD s) (hlatest : ∀ r, p.latest r = s.x r)
    (hparams : p.params = s.params) (hstall : p.stall = false) {r : PipeResult} (hs : s.StopsInD r) :
    p.stopD = some r := by
  cases hs with
  | fetch hfetch => exact h.stopD_of_fetch_stop hfetch
  | rejected hfetch hdec hnop => rw [h.stopD_of_rejected hfetch hdec, hparams, hnop]; rfl
  | jump hfetch hdec hjump halign =>
    rw [h.stopD_of_instr hfetch hdec, h.v1D_of_jump hlatest hstall hjump, hjump, hstall, halign]
    rfl

/-- One that stops in M does not stop in D. -/
theorem PipeState.HoldsD.stopD_of_stopsInM (h : p.HoldsD s) {f : Fault} (hs : s.StopsInM f) : p.stopD = none := by
  obtain ⟨w, i, hfetch, hdec⟩ := hs.decodes
  have hjump : s.ctrl.npcSel ≠ 0b11#2 := fun hjump => by
    have hacc := hs.accesses
    obtain ⟨hdm, -, hwd⟩ := (ctrlOf_sound s.wordAt).transfer (by rw [hjump]; decide)
    obtain ⟨hwe, hload⟩ : s.ctrl.grfWE = true ∧ s.ctrl.wdSel = 0b01#2 := by simpa [Controls.accesses, hdm] using hacc
    rw [hwd hwe] at hload
    cases hload
  rw [h.stopD_of_instr hfetch hdec, if_neg (by simp [hjump])]

end

/-! ### One cycle -/

section
variable {a : Nat → State} {n w m e d : Nat} {p : PipeState}

/-- A cycle where nothing stops in M. -/
theorem cycle_of_stopM_none (hreset : p.resetPin = false) (hM : p.stopM = none) :
    (p.stopD = none ∧ cycle p = .next (p.advance p.stall)) ∨
      ∃ r, p.stopD = some r ∧
        ((p.olderDone = true ∧ cycle p = r) ∨ (p.olderDone = false ∧ cycle p = .next (p.advance true))) := by
  have hstop : p.pipeStop = p.stopD := by rw [PipeState.pipeStop, hM]
  cases hD : p.stopD with
  | none => exact .inl ⟨rfl, cycle_of_pipeStop_none hreset (hstop.trans hD)⟩
  | some r =>
    refine .inr ⟨r, rfl, ?_⟩
    cases hdone : p.olderDone with
    | true => exact .inl ⟨rfl, by simp [cycle, hreset, hstop, hD, hdone]⟩
    | false => exact .inr ⟨rfl, by simp [cycle, hreset, hstop, hD, hdone, PipeState.drain_of_stopM_none hM]⟩

/-- With nothing ahead of the instruction in D there is no stall. -/
theorem PipeState.stall_of_empty (hE : p.frE.Empty) (hM : p.frM.Empty) (hbusy : p.busy = false) : p.stall = false := by
  have hprodE (r : Reg) : p.prodE.matched r = false := hE.port.matched r
  have hprodM (r : Reg) : p.prodM.matched r = false := hM.port.matched r
  have hentry (tuse : BitVec 2) (r : Reg) : (fieldEntry tuse r p.prodE p.prodM p.prodW).isStall = false := by
    rw [Bool.eq_false_iff, ne_eq, fieldEntry_isStall, hprodE, hprodM]
    simp
  have hstart := PipeState.start_of_not_isMultDiv hE.isMultDiv
  simp [PipeState.stall, ctrlStall, PipeState.entryRs, PipeState.entryRt, hentry, hstart, hbusy]

theorem Sim.stall_of_empty (h : Sim a n p w w w w) (hbusy : p.busy = false) : p.stall = false :=
  PipeState.stall_of_empty (h.emptyE rfl) (h.emptyM rfl) hbusy

/-- The stages behind D are empty exactly where no instruction is in them. -/
theorem Sim.empty_of_not_live (h : Sim a n p w m e d) (hm : m ≤ n) (hW : p.frW.live = false)
    (hM : p.frM.live = false) (hE : p.frE.live = false) : m = w ∧ e = w ∧ d = w := by
  have hmw : m = w := by
    rcases h.orderW with hmw | hmw
    · exact hmw
    · rw [(h.holdsW hmw (by omega)).fill] at hW
      cases hW
  have hem : e = m := by
    rcases h.orderM with hem | hem
    · exact hem
    · rw [(h.holdsM hem hm).fill] at hM
      cases hM
  have hde : d = e := by
    rcases h.orderE with hde | hde
    · exact hde
    · rw [(h.holdsE hde (hem ▸ hm)).fill] at hE
      cases hE
  omega

/-- How far a run of `n` steps is from its end: the instructions still to come, then the busy cycles. -/
def Sim.distance (n : Nat) (p : PipeState) (w m e d : Nat) : Nat := 16 * (4 * (n + 3) - (w + m + e + d)) + p.mult.count

theorem multLatency_le (sel : BitVec 3) : multLatency sel ≤ 10 := by
  unfold multLatency
  split <;> decide

/-- At an edge an operation starts, or the busy cycles go down. -/
theorem PipeState.multNext_count_le (p : PipeState) : p.multNext.count ≤ p.mult.count + 10 := by
  cases hs : p.start with
  | true =>
    rw [PipeState.multNext_of_start hs]
    exact (multLatency_le _).trans (Nat.le_add_left ..)
  | false =>
    rw [PipeState.multNext_count hs]
    omega

/-- A cycle that goes on: every instruction moves, that in D too or not. -/
structure Sim.Goes (a : Nat → State) (n : Nat) (p : PipeState) (w m e d : Nat) (q : PipeState) (d' : Nat) : Prop where
  next : cycle p = .next q
  sim : Sim a n q m e d d'
  inD : d' = d ∨ d' = d + 1 ∧ p.stall = false ∧ p.stopD = none
  nearer : Sim.distance n q m e d d' < Sim.distance n p w m e d

theorem Sim.nearer_of_lt (h : Sim a n p w m e d) (hm : m ≤ n) {d' : Nat} (hd : w < d') (hd' : d' ≤ d + 1)
    (hold : Bool) :
    Sim.distance n (p.advance hold) m e d d' < Sim.distance n p w m e d := by
  have hcount : (p.advance hold).mult.count ≤ p.mult.count + 10 := p.multNext_count_le
  obtain ⟨hW, hM, hE⟩ := And.intro h.orderW (And.intro h.orderM h.orderE)
  unfold Sim.distance
  omega

theorem Sim.nearer_of_busy (h : Sim a n p w w w w) (hbusy : p.busy = true) (hold : Bool) :
    Sim.distance n (p.advance hold) w w w w < Sim.distance n p w w w w := by
  have hcount : (p.advance hold).mult.count = p.mult.count - 1 :=
    PipeState.multNext_count (PipeState.start_of_not_isMultDiv (h.emptyE rfl).isMultDiv)
  have hpos := (PipeState.busy_iff p).mp hbusy
  unfold Sim.distance
  omega

/-- A hold goes nearer to the end: something moves behind D, or MULT is busy. -/
theorem Sim.goes_hold (h : Sim a n p w m e d) (hrun : ArchRun a n) (hm : m ≤ n)
    (hnext : cycle p = .next (p.advance true)) (hwait : m = w ∧ e = w ∧ d = w → p.busy = true) :
    Sim.Goes a n p w m e d (p.advance true) d := by
  refine ⟨hnext, h.advance_true hrun, .inl rfl, ?_⟩
  by_cases hempty : m = w ∧ e = w ∧ d = w
  · obtain ⟨rfl, rfl, rfl⟩ := hempty
    exact h.nearer_of_busy (hwait ⟨rfl, rfl, rfl⟩) true
  · obtain ⟨hW, hM, hE⟩ := And.intro h.orderW (And.intro h.orderM h.orderE)
    exact h.nearer_of_lt hm (by omega) (by omega) true

/-- One cycle where nothing stops in M. -/
theorem Sim.cycle (h : Sim a n p w m e d) (hrun : ArchRun a n) (hm : m ≤ n) (hM : p.stopM = none) :
    (∃ q d', Sim.Goes a n p w m e d q d') ∨
      ((m = w ∧ e = w ∧ d = w) ∧ p.busy = false ∧ ∃ r, p.stopD = some r ∧ Machine.cycle p = r) := by
  obtain ⟨hD, hnext⟩ | ⟨r, hD, ⟨hdone, hstop⟩ | ⟨hdone, hnext⟩⟩ := cycle_of_stopM_none h.reset hM
  case inl =>
    cases hstall : p.stall with
    | false =>
      obtain ⟨hW, hM, hE⟩ := And.intro h.orderW (And.intro h.orderM h.orderE)
      rw [hstall] at hnext
      exact .inl ⟨_, d + 1, hnext, h.advance_false hrun hstall, .inr ⟨rfl, hstall, hD⟩,
        h.nearer_of_lt hm (by omega) le_rfl false⟩
    | true =>
      rw [hstall] at hnext
      refine .inl ⟨_, d, h.goes_hold hrun hm hnext fun hempty => ?_⟩
      by_contra hbusy
      obtain ⟨rfl, rfl, rfl⟩ := hempty
      rw [h.stall_of_empty (by simpa using hbusy)] at hstall
      cases hstall
  case inr.inl =>
    have hdone : ((p.frW.live = false ∧ p.busy = false) ∧ p.frE.live = false) ∧ p.frM.live = false := by
      simpa [PipeState.olderDone, hM, and_assoc] using hdone
    obtain ⟨⟨⟨hW, hbusy⟩, hE⟩, hM⟩ := hdone
    exact .inr ⟨h.empty_of_not_live hm hW hM hE, hbusy, r, hD, hstop⟩
  case inr.inr =>
    refine .inl ⟨_, d, h.goes_hold hrun hm hnext ?_⟩
    rintro ⟨rfl, rfl, rfl⟩
    simpa [PipeState.olderDone, (h.emptyW rfl).live, (h.emptyM rfl).live, (h.emptyE rfl).live] using hdone

/-- While M's instruction is one that completes, or none, nothing stops in M. -/
theorem Sim.stopM_none (h : Sim a n p w m e d) (hrun : ArchRun a n) (hm : m < n ∨ e = m) : p.stopM = none := by
  rcases h.orderM with hem | hem
  · exact (h.emptyM hem).stopM
  · have hlt : m < n := by omega
    rw [(h.holdsM hem hlt.le).stopM (h.params.trans (hrun.fixed hlt.le).2.2.1.symm)]
    split
    · next hacc => exact (a m).shape.dataFault_none (hrun.effect hlt).1 hacc
    · rfl

theorem Sim.stopD_none (h : Sim a n p w m e d) (hrun : ArchRun a n) (hd : d < n) : p.stopD = none := by
  obtain ⟨hreset, -, hparams, -⟩ := hrun.fixed hd.le
  exact (h.holdsD hd.le).stopD_of_step (h.latest hrun hd.le) (h.params.trans hparams.symm) hreset (hrun.step d hd)

end

end Sys2Proof.Machine
end

section
/-! What the pipeline shows while it runs beside the architectural machine, and the equivalence of rule R262. -/

namespace Sys2Proof.Machine

/-! ### What one cycle shows -/

theorem regWrites_memEvents (p : PipeState) : regWrites p.memEvents = [] := by
  unfold PipeState.memEvents
  split <;> rfl

theorem stores_regEvents (p : PipeState) : stores p.regEvents = [] := by
  unfold PipeState.regEvents
  split <;> rfl

theorem memEvents_of_byteen_zero {p : PipeState} (h : p.byteenM = 0#4) : p.memEvents = [] := by
  have hport : p.ports.mDataByteen = 0#4 := h
  simp [PipeState.memEvents, hport]

/-- A legal store enables its first lane. -/
theorem byteen_ne_zero {a : Word} {n : Nat} (hn : n = 1 ∨ n = 2 ∨ n = 4) (ha : a.toNat % n = 0) : byteen a n ≠ 0#4 := by
  intro hzero
  have hlane := getLsbD_byteen hn ha (i := a.toNat % 4) (Nat.mod_lt _ (by decide))
  rw [hzero] at hlane
  have hpos : 0 < n := by omega
  simp [hpos] at hlane

/-- The store that M shows is that of the instruction in it. -/
theorem PipeState.HoldsM.stores_memEvents {p : PipeState} {s : State} (h : p.HoldsM s)
    (hstop : s.effectAt.stop s = none) (hM : p.stopM = none) :
    stores p.memEvents = if s.ctrl.dmWE then [ctrlStore s.ctrl s.wordAt s] else [] := by
  have hfield {α : Type} (field : FRM → α) : field p.frM = field (p.frM.fill s) := congrArg field h.fill
  cases hdm : s.ctrl.dmWE with
  | false =>
    have hzero : p.byteenM = 0#4 := by
      rw [PipeState.byteenM, (hfield FRM.dmWE).trans hdm]
      rfl
    rw [memEvents_of_byteen_zero hzero]
    rfl
  | true =>
    have hsel := (ctrlOf_sound s.wordAt).plainSel hdm
    have hlegal := s.shape.dataFault_none hstop (by simp [Controls.accesses, hdm])
    obtain ⟨halign, -⟩ := (Machine.dataFault_none ..).mp hlegal
    have hbyteen : p.byteenM = byteen s.result (accessBytes s.ctrl.dmSel) := by
      rw [PipeState.byteenM, (hfield FRM.dmWE).trans hdm, h.op (.inl hdm), hfield FRM.dmSel]
      exact byteenModule_eq_byteen hsel halign
    have hwdata : p.wdataM = wdataModule true s.ctrl.dmSel s.result (s.x (fRt s.wordAt)) p.rdata := by
      rw [PipeState.wdataM, (hfield FRM.dmWE).trans hdm, h.op (.inl hdm), hfield FRM.dmSel, h.data hdm]
      rfl
    have hne : p.ports.mDataByteen ≠ 0#4 := by
      rw [show p.ports.mDataByteen = _ from hbyteen]
      exact byteen_ne_zero (accessBytes_cases _) halign
    have hevents : p.memEvents = [.memWrite p.frM.op p.byteenM p.wdataM] := by
      rw [PipeState.memEvents, if_pos (by simp [hM, hne])]
      rfl
    rw [hevents, h.op (.inl hdm), hbyteen, hwdata, if_pos rfl, ctrlStore, ← wdataModule_and_mask hsel halign _ p.rdata]
    rfl

/-- The write-back that W shows is that of the instruction in it. -/
theorem PipeState.HoldsW.regWrites_regEvents {p : PipeState} {s : State} (h : p.HoldsW s) :
    regWrites p.regEvents = if s.ctrl.grfWE then [(s.dest, s.value)] else [] := by
  have hfield {α : Type} (field : FRW → α) : field p.frW = field (p.frW.fill s) := congrArg field h.fill
  have hlive : p.frW.live = true := hfield FRW.live
  have hwe : p.ports.wGrfWe = s.ctrl.grfWE := hfield FRW.grfWE
  have hdest : p.ports.wGrfAddr = s.dest := hfield FRW.a3
  cases hc : s.ctrl.grfWE with
  | false => simp [PipeState.regEvents, hwe, hc, regWrites]
  | true =>
    have hvalue : p.ports.wGrfWdata = s.value := h.value hc
    simp [PipeState.regEvents, hlive, hwe, hc, hdest, hvalue, regWrites, Event.asRegWrite]

section
variable {a : Nat → State} {n w m e d : Nat} {p : PipeState}

theorem ArchRun.executed_succ (hrun : ArchRun a n) {j : Nat} (hj : j < n) :
    (a j).executed (n - j) = (a j).pc :: (a (j + 1)).executed (n - (j + 1)) := by
  obtain ⟨k, hk⟩ : ∃ k, n - j = k + 1 := ⟨n - j - 1, by omega⟩
  have hk' : n - (j + 1) = k := by omega
  simp [hk, hk', State.executed, hrun.step j hj, (hrun.fixed hj.le).1]

/-- The address that W shows, ahead of what is still to come. -/
theorem Sim.retired (h : Sim a n p w m e d) (hrun : ArchRun a n) (hm : m ≤ n) :
    (if p.frW.live then [p.frW.pc8 - 8#32] else []) ++ (a m).executed (n - m) = (a w).executed (n - w) := by
  rcases h.orderW with rfl | rfl
  · simp [(h.emptyW rfl).live]
  · have hW := h.holdsW rfl hm
    have hlive : p.frW.live = true := congrArg FRW.live hW.fill
    have hpc : p.frW.pc8 = (a w).pc + 8#32 := congrArg FRW.pc8 hW.fill
    rw [hrun.executed_succ hm, hlive, hpc, BitVec.add_sub_cancel]
    rfl

/-- The register writes that a cycle shows, after those of the run up to W. -/
theorem Sim.regWrites (h : Sim a n p w m e d) (hrun : ArchRun a n) (hm : m ≤ n) :
    regWrites (a w).events ++ regWrites p.portEvents = regWrites (a m).events := by
  rw [PipeState.portEvents, regWrites_append, regWrites_memEvents, List.append_nil]
  rcases h.orderW with rfl | rfl
  · simp [PipeState.regEvents, (h.emptyW rfl).live, Machine.regWrites]
  · obtain ⟨hstop, hnext⟩ := hrun.effect hm
    rw [(h.holdsW rfl hm).regWrites_regEvents, hnext, (a w).shape.after_regWrites hstop]

/-- The store that a cycle shows, after those of the run up to M. -/
theorem Sim.stores (h : Sim a n p w m e d) (hrun : ArchRun a n) (he : e ≤ n) (hM : p.stopM = none) :
    stores (a m).events ++ stores p.portEvents = stores (a e).events := by
  rw [PipeState.portEvents, stores_append, stores_regEvents, List.nil_append]
  rcases h.orderM with rfl | rfl
  · have hzero : p.byteenM = 0#4 := by
      rw [PipeState.byteenM, (h.emptyM rfl).dmWE]
      rfl
    rw [memEvents_of_byteen_zero hzero]
    exact List.append_nil _
  · obtain ⟨hstop, hnext⟩ := hrun.effect he
    rw [(h.holdsM rfl (by omega)).stores_memEvents hstop hM, hnext, (a m).shape.after_stores hstop]

/-! ### Runs of cycles -/

theorem run_succ_of_next {q : PipeState} (h : cycle p = .next q) (k : Nat) :
    pipelineMachine.run (k + 1) p = pipelineMachine.run k q := by
  have hstep : pipelineMachine.step p = .next q := h
  simp only [Host.Core.run, hstep]

theorem run_add {q : PipeState} {r : PipeResult} {j k : Nat} (hp : pipelineMachine.run j p = .next q)
    (hq : pipelineMachine.run k q = r) : pipelineMachine.run (j + k) p = r := by
  induction j generalizing p with
  | zero =>
    cases hp
    rwa [Nat.zero_add]
  | succ j ih =>
    cases hnext : Machine.cycle p with
    | next p' =>
      rw [run_succ_of_next hnext] at hp
      rw [Nat.add_right_comm, run_succ_of_next hnext, ih hp]
    | fault f =>
      have hstep : pipelineMachine.step p = .fault f := hnext
      simp only [Host.Core.run, hstep] at hp
      cases hp
    | refused f =>
      have hstep : pipelineMachine.step p = .refused f := hnext
      simp only [Host.Core.run, hstep] at hp
      cases hp

theorem retired_succ {q : PipeState} (h : Machine.cycle p = .next q) (k : Nat) :
    p.retired (k + 1) = (if p.frW.live then [p.frW.pc8 - 8#32] else []) ++ q.retired k := by
  simp only [PipeState.retired, h]

theorem trace_succ {q : PipeState} (h : Machine.cycle p = .next q) (k : Nat) :
    p.trace (k + 1) = p.portEvents ++ q.trace k := by
  simp only [PipeState.trace, h]

/-- `k` cycles lead from `p` to `q`, in which the instructions from `w` up to `n` have completed in W, and show their
addresses and register writes. -/
structure CompletesW (a : Nat → State) (n : Nat) (p : PipeState) (w k : Nat) (q : PipeState) : Prop where
  run : pipelineMachine.run k p = .next q
  retired : p.retired k = (a w).executed (n - w)
  regWrites : regWrites (a w).events ++ regWrites (p.trace k) = regWrites (a n).events
  gpr : q.gpr = (a n).gpr

/-- `k` cycles lead from `p` to `q`, in which those from `m` up to `n` are past M, and show their stores. -/
structure CompletesM (a : Nat → State) (n : Nat) (p : PipeState) (m k : Nat) (q : PipeState) : Prop where
  run : pipelineMachine.run k p = .next q
  stores : stores (a m).events ++ stores (p.trace k) = stores (a n).events
  ram : ∀ b, ramByte q.ram b = ramByte (a n).ram b

theorem CompletesW.refl {q : PipeState} (h : q.gpr = (a n).gpr) : CompletesW a n q n 0 q :=
  ⟨rfl, by rw [Nat.sub_self]; rfl, List.append_nil _, h⟩

theorem CompletesM.refl {q : PipeState} (h : ∀ b, ramByte q.ram b = ramByte (a n).ram b) : CompletesM a n q n 0 q :=
  ⟨rfl, List.append_nil _, h⟩

/-- One cycle more, ahead of those. -/
theorem CompletesW.cons (h : Sim a n p w m e d) (hrun : ArchRun a n) (hm : m ≤ n) {q r : PipeState}
    (hnext : cycle p = .next q) {k : Nat} (hq : CompletesW a n q m k r) : CompletesW a n p w (k + 1) r where
  run := (run_succ_of_next hnext k).trans hq.run
  retired := by rw [retired_succ hnext, hq.retired, h.retired hrun hm]
  regWrites := by
    rw [trace_succ hnext, regWrites_append, ← List.append_assoc, h.regWrites hrun hm, hq.regWrites]
  gpr := hq.gpr

theorem CompletesM.cons (h : Sim a n p w m e d) (hrun : ArchRun a n) (he : e ≤ n) (hM : p.stopM = none)
    {q r : PipeState} (hnext : cycle p = .next q) {k : Nat} (hq : CompletesM a n q e k r) :
    CompletesM a n p m (k + 1) r where
  run := (run_succ_of_next hnext k).trans hq.run
  stores := by rw [trace_succ hnext, stores_append, ← List.append_assoc, h.stores hrun he hM, hq.stores]
  ram := hq.ram

/-- With the last of the `n` instructions in W one cycle is missing, which goes on even if M stops. -/
theorem Sim.cycle_W (h : Sim a n p w m e d) (hrun : ArchRun a n) (hm : m = n) (hw : m = w + 1) :
    ∃ q, Machine.cycle p = .next q ∧ q.gpr = (a n).gpr := by
  have hgpr : p.grfNext = (a n).gpr := hm ▸ h.grfNext hrun hm.le
  have hlive : p.frW.live = true := congrArg FRW.live (h.holdsW hw (by omega)).fill
  have hdone : p.olderDone = false := by simp [PipeState.olderDone, hlive]
  cases hstop : p.pipeStop with
  | none => exact ⟨_, cycle_of_pipeStop_none h.reset hstop, hgpr⟩
  | some r =>
    refine ⟨p.drain, by simp [Machine.cycle, h.reset, hstop, hdone], ?_⟩
    unfold PipeState.drain
    split <;> exact hgpr

/-- The pipeline goes on until the first `n` instructions are past W. -/
theorem Sim.reach_W (h : Sim a n p w m e d) (hrun : ArchRun a n) (hw : w ≤ n) : ∃ k q, CompletesW a n p w k q := by
  induction hN : Sim.distance n p w m e d using Nat.strong_induction_on generalizing p w m e d with
  | _ N ih =>
    rcases hw.eq_or_lt with rfl | hlt
    · exact ⟨0, p, .refl (h.gpr le_rfl)⟩
    by_cases hm : m = n
    · subst hm
      have hwm : m = w + 1 := by have := h.orderW; omega
      obtain ⟨q, hnext, hgpr⟩ := h.cycle_W hrun rfl hwm
      exact ⟨1, q, .cons h hrun le_rfl hnext (.refl hgpr)⟩
    have hm : m < n := by have := h.orderW; omega
    obtain ⟨q, d', hgo⟩ | ⟨⟨rfl, rfl, rfl⟩, -, r, hD, -⟩ := h.cycle hrun hm.le (h.stopM_none hrun (.inl hm))
    · obtain ⟨k, r, hr⟩ := ih _ (hN ▸ hgo.nearer) hgo.sim hm.le rfl
      exact ⟨k + 1, r, hr.cons h hrun hm.le hgo.next⟩
    · rw [h.stopD_none hrun hlt] at hD
      cases hD

/-- It goes on until they are past M. -/
theorem Sim.reach_M (h : Sim a n p w m e d) (hrun : ArchRun a n) (hm : m ≤ n) : ∃ k q, CompletesM a n p m k q := by
  induction hN : Sim.distance n p w m e d using Nat.strong_induction_on generalizing p w m e d with
  | _ N ih =>
    rcases hm.eq_or_lt with rfl | hlt
    · exact ⟨0, p, .refl (h.ram le_rfl)⟩
    have he : e ≤ n := by have := h.orderM; omega
    have hM := h.stopM_none hrun (.inl hlt)
    obtain ⟨q, d', hgo⟩ | ⟨⟨rfl, rfl, rfl⟩, -, r, hD, -⟩ := h.cycle hrun hm hM
    · obtain ⟨k, r, hr⟩ := ih _ (hN ▸ hgo.nearer) hgo.sim he rfl
      exact ⟨k + 1, r, hr.cons h hrun he hM hgo.next⟩
    · rw [h.stopD_none hrun hlt] at hD
      cases hD

/-- It goes on until they are past E. -/
theorem Sim.reach_E (h : Sim a n p w m e d) (hrun : ArchRun a n) (he : e ≤ n) :
    ∃ k q w' m' d', pipelineMachine.run k p = .next q ∧ Sim a n q w' m' n d' := by
  induction hN : Sim.distance n p w m e d using Nat.strong_induction_on generalizing p w m e d with
  | _ N ih =>
    rcases he.eq_or_lt with rfl | hlt
    · exact ⟨0, p, w, m, d, rfl, h⟩
    have hm : m < n := by have := h.orderM; omega
    have hd : d ≤ n := by have := h.orderE; omega
    obtain ⟨q, d', hgo⟩ | ⟨⟨rfl, rfl, rfl⟩, -, r, hD, -⟩ := h.cycle hrun hm.le (h.stopM_none hrun (.inl hm))
    · obtain ⟨k, q', w', m', d'', hreach, hsim⟩ := ih _ (hN ▸ hgo.nearer) hgo.sim hd rfl
      exact ⟨k + 1, q', w', m', d'', (run_succ_of_next hgo.next k).trans hreach, hsim⟩
    · rw [h.stopD_none hrun hlt] at hD
      cases hD

end

/-! ### The end of an operation of MULT -/

/-- While MULT is busy nothing stops, and no instruction of the unit is in E: the operation ends. -/
theorem run_until_idle {p : PipeState} (hreset : p.resetPin = false) (hlock : p.Interlocked) :
    ∃ k q, pipelineMachine.run k p = .next q ∧ q.busy = false ∧ (q.mult.hi, q.mult.lo) = p.mult.final := by
  induction hN : p.mult.count using Nat.strong_induction_on generalizing p with
  | _ N ih =>
    cases hbusy : p.busy with
    | false => exact ⟨0, p, rfl, hbusy, by rw [MultUnit.final, if_pos (PipeState.count_of_not_busy hbusy)]⟩
    | true =>
      have hstart := PipeState.start_of_not_isMultDiv (hlock hbusy)
      have hdone : p.olderDone = false := by simp [PipeState.olderDone, hbusy]
      obtain ⟨q, hnext, htick⟩ : ∃ q, cycle p = .next q ∧ q.mult = p.mult.tick := by
        cases hstop : p.pipeStop with
        | none => exact ⟨_, cycle_of_pipeStop_none hreset hstop, PipeState.multNext_of_busy hstart hbusy⟩
        | some r =>
          refine ⟨p.drain, by simp [cycle, hreset, hstop, hdone], ?_⟩
          unfold PipeState.drain
          split
          · rfl
          · exact PipeState.multNext_of_busy hstart hbusy
      have hcount : q.mult.count < N := by
        have hpos := (PipeState.busy_iff p).mp hbusy
        rw [htick, MultUnit.tick_count]
        omega
      obtain ⟨k, r, hr, hidle, hfinal⟩ :=
        ih _ hcount ((cycle_fixed hnext).2.2.trans hreset) (cycle_interlocked (.inr hlock) hnext) rfl
      exact ⟨k + 1, r, (run_succ_of_next hnext k).trans hr, hidle, by rw [hfinal, htick, MultUnit.tick_final]⟩

/-! ### Stops -/

theorem run_one (p : PipeState) : pipelineMachine.run 1 p = cycle p := by
  have hstep : pipelineMachine.step p = cycle p := rfl
  cases h : cycle p <;> (simp only [Host.Core.run, hstep, h]; rfl)

theorem cycle_of_stopM {p : PipeState} {f : Fault} (hreset : p.resetPin = false) (hM : p.stopM = some f) :
    (p.olderDone = true ∧ cycle p = .fault f) ∨
      (p.olderDone = false ∧ cycle p = .next { p with gpr := p.grfNext, frW := FRW.zero, mult := p.mult.tick }) := by
  have hstop : p.pipeStop = some (.fault f) := by rw [PipeState.pipeStop, hM]
  rw [← PipeState.drain_of_stopM hM]
  cases hdone : p.olderDone with
  | true => exact .inl ⟨rfl, by simp [cycle, hreset, hstop, hdone]⟩
  | false => exact .inr ⟨rfl, by simp [cycle, hreset, hstop, hdone]⟩

/-- A stop in M comes when W is empty and MULT idle. -/
theorem run_of_stopM_of_empty {p : PipeState} {f : Fault} (hreset : p.resetPin = false) (hM : p.stopM = some f)
    (hW : p.frW.live = false) : ∃ k, pipelineMachine.run k p = .fault f := by
  induction hN : p.mult.count using Nat.strong_induction_on generalizing p with
  | _ N ih =>
    obtain ⟨-, hstop⟩ | ⟨hdone, hnext⟩ := cycle_of_stopM hreset hM
    · exact ⟨1, (run_one p).trans hstop⟩
    · have hbusy : p.busy = true := by simpa [PipeState.olderDone, hW, hM] using hdone
      have hcount : p.mult.tick.count < N := by
        have hpos := (PipeState.busy_iff p).mp hbusy
        rw [MultUnit.tick_count]
        omega
      obtain ⟨k, hk⟩ := ih _ hcount (p := { p with gpr := p.grfNext, frW := FRW.zero, mult := p.mult.tick })
        hreset hM rfl rfl
      exact ⟨k + 1, (run_succ_of_next hnext k).trans hk⟩

theorem run_of_stopM {p : PipeState} {f : Fault} (hreset : p.resetPin = false) (hM : p.stopM = some f) :
    ∃ k, pipelineMachine.run k p = .fault f := by
  obtain ⟨-, hstop⟩ | ⟨-, hnext⟩ := cycle_of_stopM hreset hM
  · exact ⟨1, (run_one p).trans hstop⟩
  · obtain ⟨k, hk⟩ := run_of_stopM_of_empty (p := { p with gpr := p.grfNext, frW := FRW.zero, mult := p.mult.tick })
      hreset hM rfl
    exact ⟨k + 1, (run_succ_of_next hnext k).trans hk⟩

section
variable {a : Nat → State} {n w m e d : Nat} {p : PipeState}

/-- The instruction that stops in D waits there for the older ones, and then the pipeline stops. -/
theorem Sim.run_of_stopsInD (h : Sim a n p w m e d) (hrun : ArchRun a n) (hd : d ≤ n) {r : PipeResult}
    (hs : (a n).StopsInD r) : ∃ k, pipelineMachine.run k p = r := by
  have hstopD {p : PipeState} {w m e : Nat} (h : Sim a n p w m e n) (hstall : p.stall = false) : p.stopD = some r :=
    (h.holdsD le_rfl).stopD_of_stops (h.latest hrun le_rfl) (h.params.trans (hrun.fixed le_rfl).2.2.1.symm) hstall hs
  induction hN : Sim.distance n p w m e d using Nat.strong_induction_on generalizing p w m e d with
  | _ N ih =>
    obtain ⟨hm, hM⟩ : m ≤ n ∧ (m < n ∨ e = m) := by
      have := h.orderM
      have := h.orderE
      omega
    obtain ⟨q, d', hgo⟩ | ⟨⟨rfl, rfl, rfl⟩, hbusy, r', hD, hstop⟩ := h.cycle hrun hm (h.stopM_none hrun hM)
    · have hd' : d' ≤ n := by
        rcases hgo.inD with rfl | ⟨rfl, hstall, hD⟩
        · exact hd
        · rcases hd.eq_or_lt with rfl | hlt
          · rw [hstopD h hstall] at hD
            cases hD
          · exact hlt
      obtain ⟨k, hk⟩ := ih _ (hN ▸ hgo.nearer) hgo.sim hd' rfl
      exact ⟨k + 1, (run_succ_of_next hgo.next k).trans hk⟩
    · rcases hd.eq_or_lt with rfl | hlt
      · rw [hstopD h (h.stall_of_empty hbusy)] at hD
        cases hD
        exact ⟨1, (run_one p).trans hstop⟩
      · rw [h.stopD_none hrun hlt] at hD
        cases hD

/-- The instruction that stops in M gets there, and then the pipeline stops. -/
theorem Sim.run_of_stopsInM (h : Sim a n p w m e d) (hrun : ArchRun a n) (hm : m ≤ n) {f : Fault}
    (hs : (a n).StopsInM f) : ∃ k, pipelineMachine.run k p = .fault f := by
  induction hN : Sim.distance n p w m e d using Nat.strong_induction_on generalizing p w m e d with
  | _ N ih =>
    by_cases hthere : m = n ∧ e = m + 1
    · obtain ⟨rfl, hem⟩ := hthere
      refine run_of_stopM h.reset ?_
      rw [(h.holdsM hem le_rfl).stopM (h.params.trans (hrun.fixed le_rfl).2.2.1.symm), if_pos hs.accesses]
      exact hs.fault
    obtain ⟨he, hM⟩ : e ≤ n ∧ (m < n ∨ e = m) := by
      have := h.orderM
      omega
    obtain ⟨q, d', hgo⟩ | ⟨⟨rfl, rfl, rfl⟩, hbusy, r', hD, hstop⟩ := h.cycle hrun hm (h.stopM_none hrun hM)
    · obtain ⟨k, hk⟩ := ih _ (hN ▸ hgo.nearer) hgo.sim he rfl
      exact ⟨k + 1, (run_succ_of_next hgo.next k).trans hk⟩
    · exfalso
      rcases hm.eq_or_lt with rfl | hlt
      · rw [(h.holdsD le_rfl).stopD_of_stopsInM hs] at hD
        cases hD
      · rw [h.stopD_none hrun hlt] at hD
        cases hD

end

end Sys2Proof.Machine
end

section
/-! The equivalence of rule R262: the pipeline from `PipeState.startAt s` against the architectural run from `s`. -/

namespace Sys2Proof.Machine

/-! ### The first cycle -/

/-- Before the first cycle D holds the word 0 of the reset, a `sll` to register 0 that is no instruction of the run. -/
theorem PipeState.ctrlD_startAt (s : State) :
    (PipeState.startAt s).ctrlD = instrControls 0#6 0#6 0#5 (.sll 0#5 0#5 0#5) :=
  ctrlOf_of_instr (w := 0#32) (by decide)

theorem PipeState.pipeStop_startAt (s : State) : (PipeState.startAt s).pipeStop = none := by
  have hM : (PipeState.startAt s).stopM = none := FRM.Empty.stopM FRM.zero_empty
  have hinstr : (PipeState.startAt s).frD.instr = .word 0#32 := rfl
  have hdec : decodeWord 0#32 = .instr (.sll 0#5 0#5 0#5) := by decide
  simp [PipeState.pipeStop, hM, PipeState.stopD, hinstr, hdec, PipeState.ctrlD_startAt, instrControls, instrClass,
    npcSelOf]

/-- The first cycle fetches. -/
theorem cycle_startAt {s : State} (hreset : s.resetPin = false) :
    cycle (PipeState.startAt s) = .next ((PipeState.startAt s).advance false) := by
  have hstall : (PipeState.startAt s).stall = false := PipeState.stall_of_empty FRE.zero_empty FRM.zero_empty rfl
  have hnext := cycle_of_pipeStop_none (p := PipeState.startAt s) hreset (PipeState.pipeStop_startAt s)
  rwa [PipeState.edge, hstall] at hnext

theorem PipeState.npcD_startAt (s : State) : (PipeState.startAt s).npcD = s.pc + 4#32 := by
  rw [PipeState.npcD, PipeState.ctrlD_startAt]
  rfl

theorem FRE.empty_startAt (s : State) : ((PipeState.startAt s).advance false).frE.Empty := by
  rw [PipeState.advance_false_frE]
  have hword : (PipeState.startAt s).wordD = 0#32 := rfl
  have hdest : muxA3 0b00#2 (fRd 0#32) (fRt 0#32) = 0#5 := by decide
  simp only [PipeState.freFromD, PipeState.ctrlD_startAt, hword]
  exact ⟨rfl, rfl, rfl, fun _ => ⟨hdest, rfl⟩⟩

theorem sim_startAt {a : Nat → State} {n : Nat} (hrun : ArchRun a n) (hnpc : (a 0).npc = (a 0).pc + 4#32) :
    Sim a n ((PipeState.startAt (a 0)).advance false) 0 0 0 0 where
  orderW := .inl rfl
  orderM := .inl rfl
  orderE := .inl rfl
  reset := hrun.reset
  rom := rfl
  params := rfl
  canonical := ramWriteLanes_wf hrun.ram _ _ _
  interlocked _ := (FRE.empty_startAt _).isMultDiv
  liveD := rfl
  gpr _ := rfl
  ram _ := PipeState.ramByte_ramNext_of_not_dmWE hrun.ram rfl
  hiLo _ := rfl
  holdsD _ := ⟨rfl, rfl, (PipeState.npcD_startAt _).trans hnpc.symm⟩
  emptyW _ := FRM.Empty.advance FRM.zero_empty false
  emptyM _ := FRE.Empty.advance FRE.zero_empty false
  emptyE _ := FRE.empty_startAt _
  holdsW h := absurd h (by decide)
  holdsM h := absurd h (by decide)
  holdsE h := absurd h (by decide)

/-! ### The architectural run -/

/-- A run with one state ahead. -/
def consRun (s : State) (a : Nat → State) : Nat → State
  | 0 => s
  | j + 1 => a j

theorem consRun_step {s t : State} {a : Nat → State} {n : Nat} (hstep : step s = .next t) (ht : a 0 = t)
    (ha : ∀ j, j < n → step (a j) = .next (a (j + 1))) :
    ∀ j, j < n + 1 → step (consRun s a j) = .next (consRun s a (j + 1)) := by
  intro j hj
  cases j with
  | zero => rw [consRun, consRun, ht, hstep]
  | succ j => exact ha j (by omega)

theorem core_run_succ {s t : State} (h : step s = .next t) (n : Nat) :
    Sys2Proof.core.run (n + 1) s = Sys2Proof.core.run n t := by
  have hstep : Sys2Proof.core.step s = .next t := h
  simp only [Host.Core.run, hstep]

theorem core_run_stop {s : State} {r : Result} (h : step s = r) (hr : ∀ t, r ≠ .next t) (n : Nat) :
    Sys2Proof.core.run (n + 1) s = r := by
  have hstep : Sys2Proof.core.step s = r := h
  cases r with
  | next t => exact absurd rfl (hr t)
  | fault f =>
    simp only [Host.Core.run, hstep]
    rfl
  | refused f =>
    simp only [Host.Core.run, hstep]
    rfl

/-- A run of `n` steps goes through `n` states more, or ends at a step that stops. -/
theorem core_run_states (n : Nat) (s : State) :
    ∃ (a : Nat → State) (k : Nat), a 0 = s ∧ (∀ j, j < k → step (a j) = .next (a (j + 1))) ∧
      ((k = n ∧ Sys2Proof.core.run n s = .next (a k)) ∨
        ((∀ t, step (a k) ≠ .next t) ∧ Sys2Proof.core.run n s = step (a k))) := by
  induction n generalizing s with
  | zero => exact ⟨fun _ => s, 0, rfl, fun j hj => absurd hj (Nat.not_lt_zero j), .inl ⟨rfl, rfl⟩⟩
  | succ n ih =>
    by_cases hgo : ∃ t, step s = .next t
    · obtain ⟨t, ht⟩ := hgo
      obtain ⟨a, k, h0, hstep, hend⟩ := ih t
      refine ⟨consRun s a, k + 1, rfl, consRun_step ht h0 hstep, ?_⟩
      rw [core_run_succ ht]
      rcases hend with ⟨rfl, hrun⟩ | hstop
      · exact .inl ⟨rfl, hrun⟩
      · exact .inr hstop
    · have hstop : ∀ t, step s ≠ .next t := fun t ht => hgo ⟨t, ht⟩
      exact ⟨fun _ => s, 0, rfl, fun j hj => absurd hj (Nat.not_lt_zero j), .inr ⟨hstop, core_run_stop rfl hstop n⟩⟩

/-! ### The equivalence -/

section
variable {a : Nat → State} {n : Nat}

/-- The first cycle shows nothing. -/
theorem trace_startAt (hrun : ArchRun a n) (k : Nat) :
    (PipeState.startAt (a 0)).retired (k + 1) = ((PipeState.startAt (a 0)).advance false).retired k ∧
      (PipeState.startAt (a 0)).trace (k + 1) = ((PipeState.startAt (a 0)).advance false).trace k := by
  have hnext := cycle_startAt hrun.reset
  have hshow : (PipeState.startAt (a 0)).portEvents = [] := rfl
  refine ⟨retired_succ hnext k, ?_⟩
  rw [trace_succ hnext, hshow, List.nil_append]

/-- The register writes, the stores and `HI` and `LO` of `n` steps, each at the cycle where it is complete. -/
theorem pipeline_of_run (hrun : ArchRun a n) (hnpc : (a 0).npc = (a 0).pc + 4#32) (hevents : (a 0).events = []) :
    (∃ k q, pipelineMachine.run k (PipeState.startAt (a 0)) = .next q ∧
      (PipeState.startAt (a 0)).retired k = (a 0).executed n ∧
      regWrites ((PipeState.startAt (a 0)).trace k) = regWrites (a n).events ∧ q.gpr = (a n).gpr) ∧
    (∃ k q, pipelineMachine.run k (PipeState.startAt (a 0)) = .next q ∧
      stores ((PipeState.startAt (a 0)).trace k) = stores (a n).events ∧ ∀ b, ramByte q.ram b = ramByte (a n).ram b) ∧
    (∃ k q, pipelineMachine.run k (PipeState.startAt (a 0)) = .next q ∧
      q.busy = false ∧ q.mult.hi = (a n).hi ∧ q.mult.lo = (a n).lo) := by
  have hsim := sim_startAt hrun hnpc
  have hfirst := cycle_startAt hrun.reset
  refine ⟨?writes, ?stores, ?hiLo⟩
  case writes =>
    obtain ⟨k, q, hq⟩ := hsim.reach_W hrun (Nat.zero_le n)
    obtain ⟨hretired, htrace⟩ := trace_startAt hrun k
    have hwrites := hq.regWrites
    rw [hevents] at hwrites
    exact ⟨k + 1, q, (run_succ_of_next hfirst k).trans hq.run, hretired.trans hq.retired, htrace ▸ hwrites, hq.gpr⟩
  case stores =>
    obtain ⟨k, q, hq⟩ := hsim.reach_M hrun (Nat.zero_le n)
    obtain ⟨-, htrace⟩ := trace_startAt hrun k
    have hstores := hq.stores
    rw [hevents] at hstores
    exact ⟨k + 1, q, (run_succ_of_next hfirst k).trans hq.run, htrace ▸ hstores, hq.ram⟩
  case hiLo =>
    obtain ⟨k, q, w, m, d, hq, hqsim⟩ := hsim.reach_E hrun (Nat.zero_le n)
    obtain ⟨k', r, hr, hidle, hfinal⟩ := run_until_idle hqsim.reset hqsim.interlocked
    rw [hqsim.hiLo le_rfl] at hfinal
    obtain ⟨hhi, hlo⟩ := Prod.mk.inj hfinal
    exact ⟨k + 1 + k', r, run_add ((run_succ_of_next hfirst k).trans hq) hr, hidle, hhi, hlo⟩

/-- The stop that ends a run after `n` steps, where it is one of the statement's. -/
theorem pipeline_of_stopsInD (hrun : ArchRun a n) (hnpc : (a 0).npc = (a 0).pc + 4#32) {r : PipeResult}
    (hs : (a n).StopsInD r) : ∃ k, pipelineMachine.run k (PipeState.startAt (a 0)) = r := by
  obtain ⟨k, hk⟩ := (sim_startAt hrun hnpc).run_of_stopsInD hrun (Nat.zero_le n) hs
  exact ⟨k + 1, (run_succ_of_next (cycle_startAt hrun.reset) k).trans hk⟩

theorem pipeline_of_stopsInM (hrun : ArchRun a n) (hnpc : (a 0).npc = (a 0).pc + 4#32) {f : Fault}
    (hs : (a n).StopsInM f) : ∃ k, pipelineMachine.run k (PipeState.startAt (a 0)) = .fault f := by
  obtain ⟨k, hk⟩ := (sim_startAt hrun hnpc).run_of_stopsInM hrun (Nat.zero_le n) hs
  exact ⟨k + 1, (run_succ_of_next (cycle_startAt hrun.reset) k).trans hk⟩

end

/-- Settles O60: the correspondence `Sim` holds after the first cycle and every cycle keeps it, and every cycle comes
nearer to the end of the run. -/
theorem pipelineRunsTheProgram : Obligations.PipelineRunsTheProgram := by
  unfold Obligations.PipelineRunsTheProgram
  intro s hreset _ hnpc hevents hwf
  refine ⟨fun n t ht => ?next, fun n f hf => ?fault, fun n w hw => ?refused⟩
  case next =>
    obtain ⟨a, k, rfl, hstep, ⟨rfl, hend⟩ | ⟨hstop, hend⟩⟩ := core_run_states n s
    · cases ht.symm.trans hend
      exact pipeline_of_run ⟨hreset, hwf, hstep⟩ hnpc hevents
    · exact absurd (hend.symm.trans ht) (hstop t)
  case fault =>
    obtain ⟨a, k, rfl, hstep, ⟨-, hend⟩ | ⟨-, hend⟩⟩ := core_run_states n s
    · cases hf.symm.trans hend
    · have hrun : ArchRun a k := ⟨hreset, hwf, hstep⟩
      rcases State.stops_of_fault (hrun.fixed le_rfl).1 (hend.symm.trans hf) with hs | hs
      · exact pipeline_of_stopsInD hrun hnpc hs
      · exact pipeline_of_stopsInM hrun hnpc hs
  case refused =>
    obtain ⟨a, k, rfl, hstep, ⟨-, hend⟩ | ⟨-, hend⟩⟩ := core_run_states n s
    · cases hw.symm.trans hend
    · have hrun : ArchRun a k := ⟨hreset, hwf, hstep⟩
      exact pipeline_of_stopsInD hrun hnpc (State.stops_of_refused (hrun.fixed le_rfl).1 (hend.symm.trans hw))

end Sys2Proof.Machine
end
